-- ==== Sys2Proof/Word.lean ====
section
/-!
DEFINITION. The word types of the TRIAD-6 core and the balanced digit.

A tryte is six trits of two bits each, a word twelve (00_scope.md R8, 40_alu_numeric.md R100 to R103).
The types are the packed patterns, as bits; whether a tryte is read as balanced or unbalanced is decided by the
function applied to it (20_memory.md R51).
-/

namespace Sys2Proof

/-- The 12 packed bits of a tryte, trit `i` in bits `2i+1:2i`; read as a balanced Tryte (R101). -/
abbrev Tryte := BitVec 12

/-- The same 12 bits, read as an unbalanced UTryte (R102). -/
abbrev UTryte := BitVec 12

/-- The 24 packed bits of a UWord: twelve unbalanced trits (R103). -/
abbrev UWord := BitVec 24

/-- One byte of a memory buffer (R52). -/
abbrev Byte := BitVec 8

/-- A balanced digit: -1, 0 or +1 (R100). -/
inductive Trit where
  | neg
  | zero
  | pos
deriving DecidableEq, Repr

/-- The number of values of a tryte, 3^6. -/
abbrev tryteRange : Nat := 729

/-- The number of values of a word, 3^12: addresses are taken modulo it (R76). -/
abbrev wordRange : Nat := 531441

end Sys2Proof
end

