-- ==== Sys2Proof/Syntax.lean ====
section
/-!
DEFINITION. The instruction set as syntax: the operand-free operations that the dispatch table maps opcodes to
(`Op`), and the instructions with their operand trytes (`Instr`), one constructor per row of spec/opcode_table.json
(30_encoding.md R82, R90).
-/

namespace Sys2Proof

/-- The five general registers (10_state.md R22). -/
inductive Reg where
  | a
  | c
  | d
  | x
  | y
deriving DecidableEq, Repr

/-- The addressing modes that name a memory cell (42_fetch_execute.md R181 to R184). -/
inductive AddrMode where
  | abs
  | absX
  | absY
  | ind
  | indX
  | indY
deriving DecidableEq, Repr

/-- The seven modes of a load (R200): immediate (R180), or a memory cell. -/
inductive LdMode where
  | imm
  | mem (m : AddrMode)
deriving DecidableEq, Repr

/-- The three modes of a store (R201). -/
inductive StMode where
  | abs
  | absX
  | absY
deriving DecidableEq, Repr

/-- Where the operand of an add comes from: the instruction stream, or register D (44_add.md). -/
inductive AddSource where
  | imm
  | regD
deriving DecidableEq, Repr

/-- Which increment an add applies (R262). -/
inductive AddKind where
  | plain
  | carry
  | borrow
deriving DecidableEq, Repr

/-- The twenty register transfers: source letter, then destination letter (R270). -/
inductive Xfer where
  | tac
  | tad
  | tax
  | tay
  | tca
  | tcd
  | tcx
  | tcy
  | tda
  | tdc
  | tdx
  | tdy
  | txa
  | txc
  | txd
  | txy
  | tya
  | tyc
  | tyd
  | tyx
deriving DecidableEq, Repr

/-- The three status trits that a branch can test (46_control_flow.md). -/
inductive StatusTrit where
  | s
  | ou
  | cb
deriving DecidableEq, Repr

/-- A branch condition: a status trit equals a digit, or (negated) differs from it (R301). -/
structure Cond where
  which : StatusTrit
  value : Trit
  negated : Bool
deriving DecidableEq, Repr

/-- The four trits that a flag-set instruction can write (47_flag_ops.md). -/
inductive FlagSel where
  | ou
  | cb
  | i
  | bu
deriving DecidableEq, Repr

/-- The four instruction formats (R82). -/
inductive Format where
  | imp
  | imm
  | immb
  | abs3
deriving DecidableEq, Repr

/-- An entry of the dispatch table: an instruction of R90 without its operand trytes, or INVALID (R86). -/
inductive Op where
  | ld (r : Reg) (m : LdMode)
  | st (r : Reg) (m : StMode)
  | add (src : AddSource) (k : AddKind)
  | xfer (t : Xfer)
  | tyxsp
  | tspyx
  | jmp
  | branch (c : Cond)
  | setFlag (f : FlagSel)
  | invalid
deriving DecidableEq, Repr

/-- The instructions with their operands: `v` is the operand tryte as it lies in memory, `w` the operand word, low
tryte in bits 11:0 (R83, R84). -/
inductive Instr where
  /-- `LDA #v`, load A, immediate (R202). -/
  | ldaImm (v : Tryte)
  /-- `LDA a`, load A, absolute (R203). -/
  | ldaAbs (w : UWord)
  /-- `LDA a,X`, load A, absolute indexed by X (R204). -/
  | ldaAbsX (w : UWord)
  /-- `LDA a,Y`, load A, absolute indexed by Y (R205). -/
  | ldaAbsY (w : UWord)
  /-- `LDA (a)`, load A, indirect (R206). -/
  | ldaInd (w : UWord)
  /-- `LDA (a),X`, load A, indirect indexed by X (R207). -/
  | ldaIndX (w : UWord)
  /-- `LDA (a),Y`, load A, indirect indexed by Y (R208). -/
  | ldaIndY (w : UWord)
  /-- `STA a`, store A, absolute (R237). -/
  | staAbs (w : UWord)
  /-- `STA a,X`, store A, absolute indexed by X (R238). -/
  | staAbsX (w : UWord)
  /-- `STA a,Y`, store A, absolute indexed by Y (R239). -/
  | staAbsY (w : UWord)
  /-- `LDC #v`, load C, immediate (R209). -/
  | ldcImm (v : Tryte)
  /-- `LDC a`, load C, absolute (R210). -/
  | ldcAbs (w : UWord)
  /-- `LDC a,X`, load C, absolute indexed by X (R211). -/
  | ldcAbsX (w : UWord)
  /-- `LDC a,Y`, load C, absolute indexed by Y (R212). -/
  | ldcAbsY (w : UWord)
  /-- `LDC (a)`, load C, indirect (R213). -/
  | ldcInd (w : UWord)
  /-- `LDC (a),X`, load C, indirect indexed by X (R214). -/
  | ldcIndX (w : UWord)
  /-- `LDC (a),Y`, load C, indirect indexed by Y (R215). -/
  | ldcIndY (w : UWord)
  /-- `STC a`, store C, absolute (R240). -/
  | stcAbs (w : UWord)
  /-- `STC a,X`, store C, absolute indexed by X (R241). -/
  | stcAbsX (w : UWord)
  /-- `STC a,Y`, store C, absolute indexed by Y (R242). -/
  | stcAbsY (w : UWord)
  /-- `LDD #v`, load D, immediate (R216). -/
  | lddImm (v : Tryte)
  /-- `LDD a`, load D, absolute (R217). -/
  | lddAbs (w : UWord)
  /-- `LDD a,X`, load D, absolute indexed by X (R218). -/
  | lddAbsX (w : UWord)
  /-- `LDD a,Y`, load D, absolute indexed by Y (R219). -/
  | lddAbsY (w : UWord)
  /-- `LDD (a)`, load D, indirect (R220). -/
  | lddInd (w : UWord)
  /-- `LDD (a),X`, load D, indirect indexed by X (R221). -/
  | lddIndX (w : UWord)
  /-- `LDD (a),Y`, load D, indirect indexed by Y (R222). -/
  | lddIndY (w : UWord)
  /-- `STD a`, store D, absolute (R243). -/
  | stdAbs (w : UWord)
  /-- `STD a,X`, store D, absolute indexed by X (R244). -/
  | stdAbsX (w : UWord)
  /-- `STD a,Y`, store D, absolute indexed by Y (R245). -/
  | stdAbsY (w : UWord)
  /-- `LDX #v`, load X, immediate (R223). -/
  | ldxImm (v : Tryte)
  /-- `LDX a`, load X, absolute (R224). -/
  | ldxAbs (w : UWord)
  /-- `LDX a,X`, load X, absolute indexed by X (R225). -/
  | ldxAbsX (w : UWord)
  /-- `LDX a,Y`, load X, absolute indexed by Y (R226). -/
  | ldxAbsY (w : UWord)
  /-- `LDX (a)`, load X, indirect (R227). -/
  | ldxInd (w : UWord)
  /-- `LDX (a),X`, load X, indirect indexed by X (R228). -/
  | ldxIndX (w : UWord)
  /-- `LDX (a),Y`, load X, indirect indexed by Y (R229). -/
  | ldxIndY (w : UWord)
  /-- `STX a`, store X, absolute (R246). -/
  | stxAbs (w : UWord)
  /-- `STX a,X`, store X, absolute indexed by X (R247). -/
  | stxAbsX (w : UWord)
  /-- `STX a,Y`, store X, absolute indexed by Y (R248). -/
  | stxAbsY (w : UWord)
  /-- `LDY #v`, load Y, immediate (R230). -/
  | ldyImm (v : Tryte)
  /-- `LDY a`, load Y, absolute (R231). -/
  | ldyAbs (w : UWord)
  /-- `LDY a,X`, load Y, absolute indexed by X (R232). -/
  | ldyAbsX (w : UWord)
  /-- `LDY a,Y`, load Y, absolute indexed by Y (R233). -/
  | ldyAbsY (w : UWord)
  /-- `LDY (a)`, load Y, indirect (R234). -/
  | ldyInd (w : UWord)
  /-- `LDY (a),X`, load Y, indirect indexed by X (R235). -/
  | ldyIndX (w : UWord)
  /-- `LDY (a),Y`, load Y, indirect indexed by Y (R236). -/
  | ldyIndY (w : UWord)
  /-- `STY a`, store Y, absolute (R249). -/
  | styAbs (w : UWord)
  /-- `STY a,X`, store Y, absolute indexed by X (R250). -/
  | styAbsX (w : UWord)
  /-- `STY a,Y`, store Y, absolute indexed by Y (R251). -/
  | styAbsY (w : UWord)
  /-- `ADD #v`, add immediate (R263). -/
  | add (v : Tryte)
  /-- `ADDC #v`, add immediate with carry (R264). -/
  | addc (v : Tryte)
  /-- `ADDB #v`, add immediate with borrow (R265). -/
  | addb (v : Tryte)
  /-- `ADDD`, add D (R266). -/
  | addd
  /-- `ADDDC`, add D with carry (R267). -/
  | adddc
  /-- `ADDDB`, add D with borrow (R268). -/
  | adddb
  /-- `TAC`, copy A to C (R271). -/
  | tac
  /-- `TAD`, copy A to D (R272). -/
  | tad
  /-- `TAX`, copy A to X (R273). -/
  | tax
  /-- `TAY`, copy A to Y (R274). -/
  | tay
  /-- `TCA`, copy C to A (R275). -/
  | tca
  /-- `TCD`, copy C to D (R276). -/
  | tcd
  /-- `TCX`, copy C to X (R277). -/
  | tcx
  /-- `TCY`, copy C to Y (R278). -/
  | tcy
  /-- `TDA`, copy D to A (R279). -/
  | tda
  /-- `TDC`, copy D to C (R280). -/
  | tdc
  /-- `TDX`, copy D to X (R281). -/
  | tdx
  /-- `TDY`, copy D to Y (R282). -/
  | tdy
  /-- `TXA`, copy X to A (R283). -/
  | txa
  /-- `TXC`, copy X to C (R284). -/
  | txc
  /-- `TXD`, copy X to D (R285). -/
  | txd
  /-- `TXY`, copy X to Y (R286). -/
  | txy
  /-- `TYA`, copy Y to A (R287). -/
  | tya
  /-- `TYC`, copy Y to C (R288). -/
  | tyc
  /-- `TYD`, copy Y to D (R289). -/
  | tyd
  /-- `TYX`, copy Y to X (R290). -/
  | tyx
  /-- `TYXSP`, Y and X to SP (R291). -/
  | tyxsp
  /-- `TSPYX`, SP to Y and X (R292). -/
  | tspyx
  /-- `JMP a` (R300). -/
  | jmp (w : UWord)
  /-- `BPOS a`, branch if F.S = +1 (R302). -/
  | bpos (w : UWord)
  /-- `BZER a`, branch if F.S = 0 (R303). -/
  | bzer (w : UWord)
  /-- `BNEG a`, branch if F.S = -1 (R304). -/
  | bneg (w : UWord)
  /-- `BNPOS a`, branch if F.S ≠ +1 (R305). -/
  | bnpos (w : UWord)
  /-- `BNZER a`, branch if F.S ≠ 0 (R306). -/
  | bnzer (w : UWord)
  /-- `BNNEG a`, branch if F.S ≠ -1 (R307). -/
  | bnneg (w : UWord)
  /-- `BOVF a`, branch if F.OU = +1 (R308). -/
  | bovf (w : UWord)
  /-- `BNEU a`, branch if F.OU = 0 (R309). -/
  | bneu (w : UWord)
  /-- `BUNF a`, branch if F.OU = -1 (R310). -/
  | bunf (w : UWord)
  /-- `BNOVF a`, branch if F.OU ≠ +1 (R311). -/
  | bnovf (w : UWord)
  /-- `BNNEU a`, branch if F.OU ≠ 0 (R312). -/
  | bnneu (w : UWord)
  /-- `BNUNF a`, branch if F.OU ≠ -1 (R313). -/
  | bnunf (w : UWord)
  /-- `BCAR a`, branch if F.CB = +1 (R314). -/
  | bcar (w : UWord)
  /-- `BNCB a`, branch if F.CB = 0 (R315). -/
  | bncb (w : UWord)
  /-- `BBOR a`, branch if F.CB = -1 (R316). -/
  | bbor (w : UWord)
  /-- `BNCAR a`, branch if F.CB ≠ +1 (R317). -/
  | bncar (w : UWord)
  /-- `BCOB a`, branch if F.CB ≠ 0 (R318). -/
  | bcob (w : UWord)
  /-- `BNBOR a`, branch if F.CB ≠ -1 (R319). -/
  | bnbor (w : UWord)
  /-- `SETOU v` (R331). -/
  | setou (v : Tryte)
  /-- `SETCB v` (R332). -/
  | setcb (v : Tryte)
  /-- `SETI v` (R333). -/
  | seti (v : Tryte)
  /-- `SETBU v` (R334). -/
  | setbu (v : Tryte)
  /-- `INVALID`, any opcode tryte `t` that the dispatch table does not assign (R336, R87). The tryte is kept so that the instruction can be written back (log 9). -/
  | invalid (t : Tryte)
deriving DecidableEq, Repr

end Sys2Proof
end

