-- ==== Sys2Proof/Config.lean ====
section
/-!
DEFINITION. The implementation parameters of 00_scope.md R4, as plain data, and the free values.

R21: a parameter is fixed at construction and never written. The machine carries its configuration in `State.cfg`
(log 2), so a statement over every state holds for every value of every parameter. INIT_MEM is the image that the
construction takes beside the configuration (R367).
-/

namespace Sys2Proof

/-- The dispatch table as its assigned rows: opcode number and operation; every other number is INVALID (R86). -/
abbrev Opmap := List (Nat × Op)

/-- A truth table of one operand, indexed by the packed code (R150). -/
structure Table1 where
  c0 : Fin 3
  c1 : Fin 3
  c2 : Fin 3
deriving DecidableEq, Repr

/-- A truth table of two operands: a row per code of the first (R150). -/
structure Table2 where
  r0 : Table1
  r1 : Table1
  r2 : Table1
deriving DecidableEq, Repr

/-- FLAG_TOGGLE: a function on the three digits (R335). -/
structure Toggle where
  onNeg : Trit
  onZero : Trit
  onPos : Trit
deriving DecidableEq, Repr

/-- ADDDB_DELTA: -1 or +1 (R262). -/
inductive AdddbDelta where
  | minusOne
  | plusOne
deriving DecidableEq, Repr

/-- A number of cycles per second as a fraction. R4 asks for a positive real: DESIGN CHOICE, a fraction of naturals
(log 18). -/
structure Rate where
  num : Nat
  den : Nat
deriving DecidableEq, Repr

/-- The parameters of R4. -/
structure Config where
  ramSize : Nat
  fbBase : Nat
  fbSize : Nat
  citBase : Nat
  citSize : Nat
  palBase : Nat
  palSize : Nat
  resetPc : UWord
  resetSp : UWord
  opmap : Opmap
  andB : Table2
  orB : Table2
  xorB : Table2
  notB : Table1
  andU : Table2
  orU : Table2
  xorU : Table2
  notU : Table1
  flagToggle : Toggle
  adddbDelta : AdddbDelta
  uwordAndInplaceNoop : Bool
  /-- CPS, what the host asks of its clock driver. No rule of the core reads it (R4, R374). -/
  cps : Rate
deriving DecidableEq, Repr

/-- What a two-operand truth table gives for codes of which one is 3: the spec defines no entry (R123). A free value:
DESIGN CHOICE, safe (log 8). -/
opaque Config.codeThreeBinary : Table2 → BitVec 2 → BitVec 2 → BitVec 2

/-- What a one-operand truth table gives for code 3: the spec defines no entry (R123). A free value: DESIGN CHOICE,
safe (log 8). -/
opaque Config.codeThreeUnary : Table1 → BitVec 2 → BitVec 2

end Sys2Proof
end

