-- ==== Sys2Proof/Machine/Numeric.lean ====
section
/-!
DEFINITION. The ternary numeric layer: packing, decoding, encoding, conversions, arithmetic, comparison and sign over
packed values (40_alu_numeric.md R100 to R123), and the septemvigesimal literals (30_encoding.md R89).

Every function is total on bit patterns: a field holding 3 weighs 3 in an unbalanced value and +2 in a balanced one
(R107, R108, R123).
-/

namespace Sys2Proof

/-- The digit of a balanced trit (R100). -/
def Trit.toInt : Trit → Int
  | .neg => -1
  | .zero => 0
  | .pos => 1

/-- The packed code of a balanced trit: the digit plus 1 (R100). -/
def Trit.code : Trit → Nat
  | .neg => 0
  | .zero => 1
  | .pos => 2

/-- The balanced trit of a packed code, where the code is valid (R100). -/
def Trit.ofCode : Nat → Option Trit
  | 0 => some .neg
  | 1 => some .zero
  | 2 => some .pos
  | _ => none

/-- The sign of an integer as a digit (R9). -/
def sgn (n : Int) : Trit :=
  if n < 0 then .neg else if n = 0 then .zero else .pos

/-- The packed code of trit `i` of a packed number: bits `2i+1:2i` (R100). -/
def codeAt (p i : Nat) : Nat := p / 4 ^ i % 4

/-- Unbalanced value of the low `k` fields of a packed number (R108). -/
def digitsValU : Nat → Nat → Nat
  | 0, _ => 0
  | k + 1, p => p % 4 + 3 * digitsValU k (p / 4)

/-- Balanced value of the low `k` fields of a packed number (R107). -/
def digitsValB : Nat → Nat → Int
  | 0, _ => 0
  | k + 1, p => ((p % 4 : Nat) - 1 : Int) + 3 * digitsValB k (p / 4)

/-- The packed number whose `k` fields are the low base-3 digits of `v` (R105, R106). -/
def digitsEnc : Nat → Nat → Nat
  | 0, _ => 0
  | k + 1, v => v % 3 + 4 * digitsEnc k (v / 3)

/-- None of the low `k` fields holds 3 (R104). -/
def fieldsValid : Nat → Nat → Bool
  | 0, _ => true
  | k + 1, p => p % 4 != 3 && fieldsValid k (p / 4)

/-- A valid tryte pattern (R104). -/
def validTryte (b : Tryte) : Bool := fieldsValid 6 b.toNat

/-- A valid word pattern (R104). -/
def validWord (w : UWord) : Bool := fieldsValid 12 w.toNat

/-- Unbalanced value of a tryte (R108). -/
def valU (b : UTryte) : Nat := digitsValU 6 b.toNat

/-- Unbalanced value of a word (R108). -/
def valU12 (w : UWord) : Nat := digitsValU 12 w.toNat

/-- Balanced value of a tryte (R107). -/
def valB (b : Tryte) : Int := digitsValB 6 b.toNat

/-- Map an integer into [-364, 364] (R105). -/
def wrapB (n : Int) : Int := (n + 364) % tryteRange - 364

/-- The Tryte of value `wrapB n` (R105, R109). -/
def encB (n : Int) : Tryte := BitVec.ofNat 12 (digitsEnc 6 (wrapB n + 364).toNat)

/-- The UTryte of value `n mod 729` (R106, R109). -/
def encU (n : Int) : UTryte := BitVec.ofNat 12 (digitsEnc 6 (n % tryteRange).toNat)

/-- The UWord of value `n mod 531441` (R106, R109). -/
def encU12 (n : Int) : UWord := BitVec.ofNat 24 (digitsEnc 12 (n % wordRange).toNat)

/-- The low tryte of a word, bits 11:0 (R113). -/
def loTryte (w : UWord) : UTryte := w.extractLsb' 0 12

/-- The high tryte of a word, bits 23:12 (R113). -/
def hiTryte (w : UWord) : UTryte := w.extractLsb' 12 12

/-- `lo : hi`, the word with low tryte `lo` and high tryte `hi` (00_scope.md R10). -/
def wordOf (lo hi : UTryte) : UWord := hi ++ lo

/-- Tryte to UTryte by value modulo 729 (R110). -/
def toUTryte (t : Tryte) : UTryte := encU (valB t)

/-- UTryte to Tryte by value modulo 729 (R111). -/
def toTryte (u : UTryte) : Tryte := encB (valU u)

/-- UTryte to UWord, zero extension (R112). -/
def toUWordZ (u : UTryte) : UWord := u.setWidth 24

/-- Tryte to UWord, sign extension: the value modulo 531441 (R114). -/
def toUWordS (t : Tryte) : UWord := encU12 (valB t)

/-- UWord to Tryte: truncate, then convert (R115). -/
def uwordToTryte (w : UWord) : Tryte := toTryte (loTryte w)

/-- Increment of a Tryte (R117). -/
def incB (t : Tryte) : Tryte := encB (valB t + 1)

/-- Increment of a UTryte (R117). -/
def incU (u : UTryte) : UTryte := encU (valU u + 1)

/-- Increment of a UWord (R117). -/
def incW (w : UWord) : UWord := encU12 (valU12 w + 1)

/-- Decrement of a Tryte (R118). -/
def decB (t : Tryte) : Tryte := encB (valB t - 1)

/-- Decrement of a UTryte (R118). -/
def decU (u : UTryte) : UTryte := encU (valU u - 1)

/-- Decrement of a UWord (R118). -/
def decW (w : UWord) : UWord := encU12 (valU12 w - 1)

/-- The increment as a ripple over `k` fields: a code 2 becomes 0 and carries, the first code below 2 is raised
(R117). One admissible form of the increment, for valid patterns only. -/
def rippleInc : Nat → Nat → Nat
  | 0, _ => 0
  | k + 1, p => if p % 4 < 2 then p + 1 else 4 * rippleInc k (p / 4)

/-- The decrement as a ripple over `k` fields: a code 0 becomes 2 and borrows, the first code above 0 is lowered
(R118). For valid patterns only. -/
def rippleDec : Nat → Nat → Nat
  | 0, _ => 0
  | k + 1, p => if 0 < p % 4 then p - 1 else 2 + 4 * rippleDec k (p / 4)

/-- Addition of Trytes (R119). -/
def addB (a b : Tryte) : Tryte := encB (valB a + valB b)

/-- Addition of UTrytes (R119). -/
def addU (a b : UTryte) : UTryte := encU (valU a + valU b)

/-- Addition of UWords (R119). -/
def addW (a b : UWord) : UWord := encU12 (valU12 a + valU12 b)

/-- Subtraction of Trytes (R120). -/
def subB (a b : Tryte) : Tryte := encB (valB a - valB b)

/-- Subtraction of UTrytes (R120). -/
def subU (a b : UTryte) : UTryte := encU (valU a - valU b)

/-- Subtraction of UWords (R120). -/
def subW (a b : UWord) : UWord := encU12 (valU12 a - valU12 b)

/-- Comparison of Trytes by value (R121). -/
def compareB (a b : Tryte) : Ordering := compare (valB a) (valB b)

/-- Comparison of UTrytes by value (R121). -/
def compareU (a b : UTryte) : Ordering := compare (valU a) (valU b)

/-- Comparison of UWords by value (R121). -/
def compareW (a b : UWord) : Ordering := compare (valU12 a) (valU12 b)

/-- Sign of a Tryte (R122). -/
def signB (t : Tryte) : Trit := sgn (valB t)

/-- Sign of a UTryte: zero or positive (R122). -/
def signU (u : UTryte) : Trit := if valU u = 0 then .zero else .pos

/-- The Tryte of six balanced trits, most significant first: what `GetTryteFromTritData` builds (R158). -/
def tryteOfTrits (t5 t4 t3 t2 t1 t0 : Trit) : Tryte :=
  BitVec.ofNat 12
    (t0.code + 4 * (t1.code + 4 * (t2.code + 4 * (t3.code + 4 * (t4.code + 4 * t5.code)))))

/-- The value of a septemvigesimal digit, '0' to '9' and 'A' to 'Q' (R89). -/
def septemDigit (c : Char) : Option Nat :=
  if '0' ≤ c ∧ c ≤ '9' then some (c.toNat - '0'.toNat)
  else if 'A' ≤ c ∧ c ≤ 'Q' then some (c.toNat - 'A'.toNat + 10)
  else none

/-- The UTryte of the two-digit literal `HL` (R89). -/
def septemTryte (h l : Nat) : UTryte := encU (27 * h + l)

/-- The UWord of the four-digit literal `g3 g2 g1 g0` (R89). -/
def septemWord (g3 g2 g1 g0 : Nat) : UWord := encU12 (19683 * g3 + 729 * g2 + 27 * g1 + g0)

end Sys2Proof
end

