-- ==== Sys2Proof/Machine/Formats.lean ====
section
/-!
DEFINITION. The shape of an instruction: its format, its operation, its operand trytes, and the instruction that an
operation makes of the trytes behind its opcode (30_encoding.md R80 to R86). The decoder, the encoder and the fetch
are written over these.
-/

namespace Sys2Proof

/-- Look an opcode number up in the dispatch table: an unassigned number is INVALID (R86, R87). -/
def opOf : Opmap → Nat → Op
  | [], _ => .invalid
  | (k, o) :: rest, n => if k = n then o else opOf rest n

/-- OPMAP^-1, the opcode number of an operation (R86): an entry of the table that names it and that a lookup finds. R86
allows two numbers for one instruction and does not say which of them OPMAP^-1 gives: DESIGN CHOICE, the first listed
(log 17). -/
def opcodeOf (m : Opmap) (o : Op) : Option Nat :=
  (m.find? fun e => e.2 = o && opOf m e.1 = o).map (·.1)

/-- The format of an operation, a function of the opcode alone (R82, R85). -/
def Op.format : Op → Format
  | .ld _ .imm => .imm
  | .ld _ (.mem _) => .abs3
  | .st _ _ => .abs3
  | .add .imm _ => .imm
  | .add .regD _ => .imp
  | .xfer _ => .imp
  | .tyxsp => .imp
  | .tspyx => .imp
  | .jmp => .abs3
  | .branch _ => .abs3
  | .setFlag _ => .immb
  | .invalid => .imp

/-- How many operand trytes follow the opcode (R82). -/
def Format.operandTrytes : Format → Nat
  | .imp => 0
  | .imm => 1
  | .immb => 1
  | .abs3 => 2

/-- Instruction length in trytes (R80, R82). -/
def Op.length (o : Op) : Nat := 1 + o.format.operandTrytes

/-- The operation of an instruction: what its opcode says (R85). -/
def Instr.op : Instr → Op
  | .ldaImm _ => .ld .a .imm
  | .ldaAbs _ => .ld .a (.mem .abs)
  | .ldaAbsX _ => .ld .a (.mem .absX)
  | .ldaAbsY _ => .ld .a (.mem .absY)
  | .ldaInd _ => .ld .a (.mem .ind)
  | .ldaIndX _ => .ld .a (.mem .indX)
  | .ldaIndY _ => .ld .a (.mem .indY)
  | .staAbs _ => .st .a .abs
  | .staAbsX _ => .st .a .absX
  | .staAbsY _ => .st .a .absY
  | .ldcImm _ => .ld .c .imm
  | .ldcAbs _ => .ld .c (.mem .abs)
  | .ldcAbsX _ => .ld .c (.mem .absX)
  | .ldcAbsY _ => .ld .c (.mem .absY)
  | .ldcInd _ => .ld .c (.mem .ind)
  | .ldcIndX _ => .ld .c (.mem .indX)
  | .ldcIndY _ => .ld .c (.mem .indY)
  | .stcAbs _ => .st .c .abs
  | .stcAbsX _ => .st .c .absX
  | .stcAbsY _ => .st .c .absY
  | .lddImm _ => .ld .d .imm
  | .lddAbs _ => .ld .d (.mem .abs)
  | .lddAbsX _ => .ld .d (.mem .absX)
  | .lddAbsY _ => .ld .d (.mem .absY)
  | .lddInd _ => .ld .d (.mem .ind)
  | .lddIndX _ => .ld .d (.mem .indX)
  | .lddIndY _ => .ld .d (.mem .indY)
  | .stdAbs _ => .st .d .abs
  | .stdAbsX _ => .st .d .absX
  | .stdAbsY _ => .st .d .absY
  | .ldxImm _ => .ld .x .imm
  | .ldxAbs _ => .ld .x (.mem .abs)
  | .ldxAbsX _ => .ld .x (.mem .absX)
  | .ldxAbsY _ => .ld .x (.mem .absY)
  | .ldxInd _ => .ld .x (.mem .ind)
  | .ldxIndX _ => .ld .x (.mem .indX)
  | .ldxIndY _ => .ld .x (.mem .indY)
  | .stxAbs _ => .st .x .abs
  | .stxAbsX _ => .st .x .absX
  | .stxAbsY _ => .st .x .absY
  | .ldyImm _ => .ld .y .imm
  | .ldyAbs _ => .ld .y (.mem .abs)
  | .ldyAbsX _ => .ld .y (.mem .absX)
  | .ldyAbsY _ => .ld .y (.mem .absY)
  | .ldyInd _ => .ld .y (.mem .ind)
  | .ldyIndX _ => .ld .y (.mem .indX)
  | .ldyIndY _ => .ld .y (.mem .indY)
  | .styAbs _ => .st .y .abs
  | .styAbsX _ => .st .y .absX
  | .styAbsY _ => .st .y .absY
  | .add _ => .add .imm .plain
  | .addc _ => .add .imm .carry
  | .addb _ => .add .imm .borrow
  | .addd => .add .regD .plain
  | .adddc => .add .regD .carry
  | .adddb => .add .regD .borrow
  | .tac => .xfer .tac
  | .tad => .xfer .tad
  | .tax => .xfer .tax
  | .tay => .xfer .tay
  | .tca => .xfer .tca
  | .tcd => .xfer .tcd
  | .tcx => .xfer .tcx
  | .tcy => .xfer .tcy
  | .tda => .xfer .tda
  | .tdc => .xfer .tdc
  | .tdx => .xfer .tdx
  | .tdy => .xfer .tdy
  | .txa => .xfer .txa
  | .txc => .xfer .txc
  | .txd => .xfer .txd
  | .txy => .xfer .txy
  | .tya => .xfer .tya
  | .tyc => .xfer .tyc
  | .tyd => .xfer .tyd
  | .tyx => .xfer .tyx
  | .tyxsp => .tyxsp
  | .tspyx => .tspyx
  | .jmp _ => .jmp
  | .bpos _ => .branch ⟨.s, .pos, false⟩
  | .bzer _ => .branch ⟨.s, .zero, false⟩
  | .bneg _ => .branch ⟨.s, .neg, false⟩
  | .bnpos _ => .branch ⟨.s, .pos, true⟩
  | .bnzer _ => .branch ⟨.s, .zero, true⟩
  | .bnneg _ => .branch ⟨.s, .neg, true⟩
  | .bovf _ => .branch ⟨.ou, .pos, false⟩
  | .bneu _ => .branch ⟨.ou, .zero, false⟩
  | .bunf _ => .branch ⟨.ou, .neg, false⟩
  | .bnovf _ => .branch ⟨.ou, .pos, true⟩
  | .bnneu _ => .branch ⟨.ou, .zero, true⟩
  | .bnunf _ => .branch ⟨.ou, .neg, true⟩
  | .bcar _ => .branch ⟨.cb, .pos, false⟩
  | .bncb _ => .branch ⟨.cb, .zero, false⟩
  | .bbor _ => .branch ⟨.cb, .neg, false⟩
  | .bncar _ => .branch ⟨.cb, .pos, true⟩
  | .bcob _ => .branch ⟨.cb, .zero, true⟩
  | .bnbor _ => .branch ⟨.cb, .neg, true⟩
  | .setou _ => .setFlag .ou
  | .setcb _ => .setFlag .cb
  | .seti _ => .setFlag .i
  | .setbu _ => .setFlag .bu
  | .invalid _ => .invalid

/-- The operand trytes of an instruction in stream order, the low tryte of a word first (R82, R84). -/
def Instr.operands : Instr → List Tryte
  | .ldaImm v | .ldcImm v | .lddImm v | .ldxImm v | .ldyImm v | .add v
  | .addc v | .addb v | .setou v | .setcb v | .seti v | .setbu v => [v]
  | .ldaAbs w | .ldaAbsX w | .ldaAbsY w | .ldaInd w | .ldaIndX w | .ldaIndY w
  | .staAbs w | .staAbsX w | .staAbsY w | .ldcAbs w | .ldcAbsX w | .ldcAbsY w
  | .ldcInd w | .ldcIndX w | .ldcIndY w | .stcAbs w | .stcAbsX w | .stcAbsY w
  | .lddAbs w | .lddAbsX w | .lddAbsY w | .lddInd w | .lddIndX w | .lddIndY w
  | .stdAbs w | .stdAbsX w | .stdAbsY w | .ldxAbs w | .ldxAbsX w | .ldxAbsY w
  | .ldxInd w | .ldxIndX w | .ldxIndY w | .stxAbs w | .stxAbsX w | .stxAbsY w
  | .ldyAbs w | .ldyAbsX w | .ldyAbsY w | .ldyInd w | .ldyIndX w | .ldyIndY w
  | .styAbs w | .styAbsX w | .styAbsY w | .jmp w | .bpos w | .bzer w
  | .bneg w | .bnpos w | .bnzer w | .bnneg w | .bovf w | .bneu w
  | .bunf w | .bnovf w | .bnneu w | .bnunf w | .bcar w | .bncb w
  | .bbor w | .bncar w | .bcob w | .bnbor w => [loTryte w, hiTryte w]
  | .addd | .adddc | .adddb | .tac | .tad | .tax | .tay | .tca
  | .tcd | .tcx | .tcy | .tda | .tdc | .tdx | .tdy | .txa
  | .txc | .txd | .txy | .tya | .tyc | .tyd | .tyx | .tyxsp
  | .tspyx | .invalid _ => []

/-- The opcode tryte that an INVALID instruction keeps (log 9). -/
def Instr.invalidTryte : Instr → Option Tryte
  | .invalid t => some t
  | _ => none

/-- A load of register `r`: `v` is its operand tryte in the immediate mode, `w` its operand word otherwise. -/
def Instr.ld (r : Reg) (m : LdMode) (v : Tryte) (w : UWord) : Instr :=
  match r, m with
  | .a, .imm => .ldaImm v
  | .a, .mem .abs => .ldaAbs w
  | .a, .mem .absX => .ldaAbsX w
  | .a, .mem .absY => .ldaAbsY w
  | .a, .mem .ind => .ldaInd w
  | .a, .mem .indX => .ldaIndX w
  | .a, .mem .indY => .ldaIndY w
  | .c, .imm => .ldcImm v
  | .c, .mem .abs => .ldcAbs w
  | .c, .mem .absX => .ldcAbsX w
  | .c, .mem .absY => .ldcAbsY w
  | .c, .mem .ind => .ldcInd w
  | .c, .mem .indX => .ldcIndX w
  | .c, .mem .indY => .ldcIndY w
  | .d, .imm => .lddImm v
  | .d, .mem .abs => .lddAbs w
  | .d, .mem .absX => .lddAbsX w
  | .d, .mem .absY => .lddAbsY w
  | .d, .mem .ind => .lddInd w
  | .d, .mem .indX => .lddIndX w
  | .d, .mem .indY => .lddIndY w
  | .x, .imm => .ldxImm v
  | .x, .mem .abs => .ldxAbs w
  | .x, .mem .absX => .ldxAbsX w
  | .x, .mem .absY => .ldxAbsY w
  | .x, .mem .ind => .ldxInd w
  | .x, .mem .indX => .ldxIndX w
  | .x, .mem .indY => .ldxIndY w
  | .y, .imm => .ldyImm v
  | .y, .mem .abs => .ldyAbs w
  | .y, .mem .absX => .ldyAbsX w
  | .y, .mem .absY => .ldyAbsY w
  | .y, .mem .ind => .ldyInd w
  | .y, .mem .indX => .ldyIndX w
  | .y, .mem .indY => .ldyIndY w

/-- A store of register `r`. -/
def Instr.st (r : Reg) (m : StMode) (w : UWord) : Instr :=
  match r, m with
  | .a, .abs => .staAbs w
  | .a, .absX => .staAbsX w
  | .a, .absY => .staAbsY w
  | .c, .abs => .stcAbs w
  | .c, .absX => .stcAbsX w
  | .c, .absY => .stcAbsY w
  | .d, .abs => .stdAbs w
  | .d, .absX => .stdAbsX w
  | .d, .absY => .stdAbsY w
  | .x, .abs => .stxAbs w
  | .x, .absX => .stxAbsX w
  | .x, .absY => .stxAbsY w
  | .y, .abs => .styAbs w
  | .y, .absX => .styAbsX w
  | .y, .absY => .styAbsY w

/-- An add: `v` is used by the immediate forms only. -/
def Instr.adds (src : AddSource) (k : AddKind) (v : Tryte) : Instr :=
  match src, k with
  | .imm, .plain => .add v
  | .imm, .carry => .addc v
  | .imm, .borrow => .addb v
  | .regD, .plain => .addd
  | .regD, .carry => .adddc
  | .regD, .borrow => .adddb

/-- A register transfer. -/
def Instr.xfer : Xfer → Instr
  | .tac => .tac
  | .tad => .tad
  | .tax => .tax
  | .tay => .tay
  | .tca => .tca
  | .tcd => .tcd
  | .tcx => .tcx
  | .tcy => .tcy
  | .tda => .tda
  | .tdc => .tdc
  | .tdx => .tdx
  | .tdy => .tdy
  | .txa => .txa
  | .txc => .txc
  | .txd => .txd
  | .txy => .txy
  | .tya => .tya
  | .tyc => .tyc
  | .tyd => .tyd
  | .tyx => .tyx

/-- A conditional branch. -/
def Instr.branch (c : Cond) (w : UWord) : Instr :=
  match c with
  | ⟨.s, .pos, false⟩ => .bpos w
  | ⟨.s, .zero, false⟩ => .bzer w
  | ⟨.s, .neg, false⟩ => .bneg w
  | ⟨.s, .pos, true⟩ => .bnpos w
  | ⟨.s, .zero, true⟩ => .bnzer w
  | ⟨.s, .neg, true⟩ => .bnneg w
  | ⟨.ou, .pos, false⟩ => .bovf w
  | ⟨.ou, .zero, false⟩ => .bneu w
  | ⟨.ou, .neg, false⟩ => .bunf w
  | ⟨.ou, .pos, true⟩ => .bnovf w
  | ⟨.ou, .zero, true⟩ => .bnneu w
  | ⟨.ou, .neg, true⟩ => .bnunf w
  | ⟨.cb, .pos, false⟩ => .bcar w
  | ⟨.cb, .zero, false⟩ => .bncb w
  | ⟨.cb, .neg, false⟩ => .bbor w
  | ⟨.cb, .pos, true⟩ => .bncar w
  | ⟨.cb, .zero, true⟩ => .bcob w
  | ⟨.cb, .neg, true⟩ => .bnbor w

/-- A flag-set instruction. -/
def Instr.setFlag (f : FlagSel) (v : Tryte) : Instr :=
  match f with
  | .ou => .setou v
  | .cb => .setcb v
  | .i => .seti v
  | .bu => .setbu v

/-- The instruction that operation `o` makes of the opcode tryte `t0` and the operand trytes `v1`, `v2`; trytes that
the format does not have are not looked at (R82 to R85). -/
def Instr.ofOp (o : Op) (t0 v1 v2 : Tryte) : Instr :=
  match o with
  | .ld r m => .ld r m v1 (wordOf v1 v2)
  | .st r m => .st r m (wordOf v1 v2)
  | .add src k => .adds src k v1
  | .xfer t => .xfer t
  | .tyxsp => .tyxsp
  | .tspyx => .tspyx
  | .jmp => .jmp (wordOf v1 v2)
  | .branch c => .branch c (wordOf v1 v2)
  | .setFlag f => .setFlag f v1
  | .invalid => .invalid t0

end Sys2Proof
end

