-- ==== Sys2Proof/Machine/Defaults.lean ====
section
/-!
DEFINITION. The spec's own defaults: DEFAULT_OPMAP (30_encoding.md R86, R90), the default truth tables
(41_alu_shift_logic.md R152 to R156), the default FLAG_TOGGLE (R335) and TEST_CONFIG (95_test_vectors.md section 0),
and the constraints a configuration must meet (R62, R86, R151, R158).
-/

namespace Sys2Proof

/-- The rows of DEFAULT_OPMAP for the loads (R86, R90). -/
def opmapLoads : Opmap :=
  [(27, .ld .a .imm), (28, .ld .a (.mem .abs)), (29, .ld .a (.mem .absX)), (30, .ld .a (.mem .absY)),
   (31, .ld .a (.mem .ind)), (32, .ld .a (.mem .indX)), (33, .ld .a (.mem .indY)), (54, .ld .c .imm),
   (55, .ld .c (.mem .abs)), (56, .ld .c (.mem .absX)), (57, .ld .c (.mem .absY)), (58, .ld .c (.mem .ind)),
   (59, .ld .c (.mem .indX)), (60, .ld .c (.mem .indY)), (81, .ld .d .imm), (82, .ld .d (.mem .abs)),
   (83, .ld .d (.mem .absX)), (84, .ld .d (.mem .absY)), (85, .ld .d (.mem .ind)), (86, .ld .d (.mem .indX)),
   (87, .ld .d (.mem .indY)), (108, .ld .x .imm), (109, .ld .x (.mem .abs)), (110, .ld .x (.mem .absX)),
   (111, .ld .x (.mem .absY)), (112, .ld .x (.mem .ind)), (113, .ld .x (.mem .indX)), (114, .ld .x (.mem .indY)),
   (135, .ld .y .imm), (136, .ld .y (.mem .abs)), (137, .ld .y (.mem .absX)), (138, .ld .y (.mem .absY)),
   (139, .ld .y (.mem .ind)), (140, .ld .y (.mem .indX)), (141, .ld .y (.mem .indY))]

/-- The rows of DEFAULT_OPMAP for the stores (R86, R90). -/
def opmapStores : Opmap :=
  [(36, .st .a .abs), (37, .st .a .absX), (38, .st .a .absY), (63, .st .c .abs),
   (64, .st .c .absX), (65, .st .c .absY), (90, .st .d .abs), (91, .st .d .absX),
   (92, .st .d .absY), (117, .st .x .abs), (118, .st .x .absX), (119, .st .x .absY),
   (144, .st .y .abs), (145, .st .y .absX), (146, .st .y .absY)]

/-- The rows of DEFAULT_OPMAP for the adds (R86, R90). -/
def opmapAdds : Opmap :=
  [(162, .add .imm .plain), (163, .add .imm .carry), (164, .add .imm .borrow), (165, .add .regD .plain),
   (166, .add .regD .carry), (167, .add .regD .borrow)]

/-- The rows of DEFAULT_OPMAP for the register transfers (R86, R90). -/
def opmapTransfers : Opmap :=
  [(189, .xfer .tac), (190, .xfer .tad), (191, .xfer .tax), (192, .xfer .tay),
   (193, .xfer .tca), (194, .xfer .tcd), (195, .xfer .tcx), (196, .xfer .tcy),
   (197, .xfer .tda), (198, .xfer .tdc), (199, .xfer .tdx), (200, .xfer .tdy),
   (201, .xfer .txa), (202, .xfer .txc), (203, .xfer .txd), (204, .xfer .txy),
   (205, .xfer .tya), (206, .xfer .tyc), (207, .xfer .tyd), (208, .xfer .tyx)]

/-- The rows of DEFAULT_OPMAP for the stack-pointer transfers, jump and branches (R86, R90). -/
def opmapControl : Opmap :=
  [(216, .tyxsp), (217, .tspyx), (243, .jmp), (244, .branch ⟨.s, .pos, false⟩),
   (245, .branch ⟨.s, .zero, false⟩), (246, .branch ⟨.s, .neg, false⟩), (247, .branch ⟨.s, .pos, true⟩), (248, .branch ⟨.s, .zero, true⟩),
   (249, .branch ⟨.s, .neg, true⟩), (250, .branch ⟨.ou, .pos, false⟩), (251, .branch ⟨.ou, .zero, false⟩), (252, .branch ⟨.ou, .neg, false⟩),
   (253, .branch ⟨.ou, .pos, true⟩), (254, .branch ⟨.ou, .zero, true⟩), (255, .branch ⟨.ou, .neg, true⟩), (256, .branch ⟨.cb, .pos, false⟩),
   (257, .branch ⟨.cb, .zero, false⟩), (258, .branch ⟨.cb, .neg, false⟩), (259, .branch ⟨.cb, .pos, true⟩), (260, .branch ⟨.cb, .zero, true⟩),
   (261, .branch ⟨.cb, .neg, true⟩)]

/-- The rows of DEFAULT_OPMAP for the flag-set instructions (R86, R90). -/
def opmapFlagOps : Opmap :=
  [(270, .setFlag .ou), (271, .setFlag .cb), (272, .setFlag .i), (273, .setFlag .bu)]

/-- DEFAULT_OPMAP (R86). The decoder of byte images and the encoder use it: DESIGN CHOICE of the spec (log 5). -/
def defaultOpmap : Opmap :=
  opmapLoads ++ opmapStores ++ opmapAdds ++ opmapTransfers ++ opmapControl ++ opmapFlagOps

/-- The truth table whose rows are the minimum of the codes: default AND of both types (R152, R156). -/
def tableMin : Table2 := ⟨⟨0, 0, 0⟩, ⟨0, 1, 1⟩, ⟨0, 1, 2⟩⟩

/-- The truth table whose rows are the maximum of the codes: default OR of both types (R153, R156). -/
def tableMax : Table2 := ⟨⟨0, 1, 2⟩, ⟨1, 1, 2⟩, ⟨2, 2, 2⟩⟩

/-- Default balanced XOR: the distance of the codes (R154). -/
def tableXorB : Table2 := ⟨⟨0, 1, 2⟩, ⟨1, 0, 1⟩, ⟨2, 1, 0⟩⟩

/-- Default unbalanced XOR: the sum modulo 3 (R156). -/
def tableXorU : Table2 := ⟨⟨0, 1, 2⟩, ⟨1, 2, 0⟩, ⟨2, 0, 1⟩⟩

/-- Default NOT of both types: 2 minus the code (R155, R156). -/
def tableNot : Table1 := ⟨2, 1, 0⟩

/-- TEST_CONFIG (95_test_vectors.md section 0; 92_eei_decisions.md D29): the configuration of the reset state.
DESIGN CHOICE, unsafe: the spec gives no value for these parameters (log 3), and TEST_CONFIG none for CPS (log 18). -/
def testConfig : Config where
  ramSize := 19683
  fbBase := 200000
  fbSize := 1000
  citBase := 201000
  citSize := 100
  palBase := 201100
  palSize := 100
  resetPc := 0x000000#24
  resetSp := 0xAAAAAA#24
  opmap := defaultOpmap
  andB := tableMin
  orB := tableMax
  xorB := tableXorB
  notB := tableNot
  andU := tableMin
  orU := tableMax
  xorU := tableXorU
  notU := tableNot
  flagToggle := ⟨.pos, .zero, .neg⟩
  adddbDelta := .minusOne
  uwordAndInplaceNoop := false
  cps := ⟨1, 1⟩

/-- Two address ranges, base and size, share no address (R62). -/
def disjointRanges (b1 s1 b2 s2 : Nat) : Bool :=
  s1 = 0 || s2 = 0 || b1 + s1 ≤ b2 || b2 + s2 ≤ b1

/-- The constraints on the region parameters (R62, R4). -/
def Config.regionsOk (c : Config) : Bool :=
  c.ramSize ≤ wordRange && c.fbBase + c.fbSize ≤ wordRange && c.citBase + c.citSize ≤ wordRange &&
  c.palBase + c.palSize ≤ wordRange &&
  disjointRanges 0 c.ramSize c.fbBase c.fbSize && disjointRanges 0 c.ramSize c.citBase c.citSize &&
  disjointRanges 0 c.ramSize c.palBase c.palSize && disjointRanges c.fbBase c.fbSize c.citBase c.citSize &&
  disjointRanges c.fbBase c.fbSize c.palBase c.palSize && disjointRanges c.citBase c.citSize c.palBase c.palSize

/-- Opcode numbers lie below 729 and none has two meanings (R86). -/
def opmapOk : Opmap → Bool
  | [] => true
  | (k, _) :: rest => k < tryteRange && rest.all (fun e => e.1 != k) && opmapOk rest

/-- Entry of a one-operand table at a code; none at code 3. -/
def Table1.entry (t : Table1) : Nat → Option (Fin 3)
  | 0 => some t.c0
  | 1 => some t.c1
  | 2 => some t.c2
  | _ => none

/-- Row of a two-operand table at a code; none at code 3. -/
def Table2.row (t : Table2) : Nat → Option Table1
  | 0 => some t.r0
  | 1 => some t.r1
  | 2 => some t.r2
  | _ => none

/-- Entry of a two-operand table at two codes; none where one is 3. -/
def Table2.entry (t : Table2) (a b : Nat) : Option (Fin 3) :=
  match t.row a with
  | some r => r.entry b
  | none => none

/-- NOT is its own inverse (R151 b). -/
def Table1.involution (t : Table1) : Bool :=
  [0, 1, 2].all fun c => (t.entry c).bind (fun d => t.entry d.val) = some (Fin.ofNat 3 c)

/-- A table has a right identity: some code whose column is the identity (R158). -/
def Table2.hasRightIdentity (t : Table2) : Bool :=
  [0, 1, 2].any fun e => [0, 1, 2].all fun c => t.entry c e = some (Fin.ofNat 3 c)

/-- A code absorbs on both sides (R151 c, d). -/
def Table2.saturatesTo (t : Table2) (s : Nat) : Bool :=
  [0, 1, 2].all fun c => t.entry s c = some (Fin.ofNat 3 s) && t.entry c s = some (Fin.ofNat 3 s)

/-- The constraints on the truth tables (R151, R158). -/
def Config.tablesOk (c : Config) : Bool :=
  c.notB.involution && c.notU.involution && c.orB.saturatesTo 2 && c.andB.saturatesTo 0 &&
  c.orB.hasRightIdentity && c.andB.hasRightIdentity && c.xorB.hasRightIdentity

/-- A rate is a positive number (R4, CPS). -/
def Rate.positive (r : Rate) : Bool := 0 < r.num && 0 < r.den

/-- A configuration that a machine can be constructed from (R4, R62, R86, R151, R355). -/
def Config.admissible (c : Config) : Bool :=
  c.regionsOk && opmapOk c.opmap && c.tablesOk && validWord c.resetPc && validWord c.resetSp &&
  c.cps.positive

end Sys2Proof
end

