-- ==== Sys2Proof/Machine/Memory.lean ====
section
/-!
DEFINITION. The byte buffers and the memory codec (20_memory.md R52 to R56).

A buffer is a list of (byte offset, byte) pairs in one canonical form: offsets strictly rising, no listed byte equal to
what an unlisted offset reads as. What an unlisted offset reads as is `unlistedByte`: the spec leaves the contents
of memory at reset open (R367, INIT_MEM); DESIGN CHOICE, unsafe, the zero fill of TEST_CONFIG (log 4).
-/

namespace Sys2Proof.Machine

/-- A byte buffer (R39, R52). -/
abbrev Buffer := List Host.Cell

/-- What a byte that nothing has written reads as (log 4). -/
def unlistedByte : Byte := 0x00#8

/-- The byte at offset `n`. -/
def readByte : Buffer → Nat → Byte
  | [], _ => unlistedByte
  | (k, b) :: rest, n => if k = n then b else readByte rest n

/-- A buffer with one more cell in front, left out where it would list the unlisted value. -/
def consCell (n : Nat) (v : Byte) (rest : Buffer) : Buffer :=
  if v = unlistedByte then rest else (n, v) :: rest

/-- Write the byte at offset `n`, keeping the canonical form. -/
def writeByte : Buffer → Nat → Byte → Buffer
  | [], n, v => consCell n v []
  | (k, b) :: rest, n, v =>
    if n < k then consCell n v ((k, b) :: rest)
    else if n = k then consCell n v rest
    else (k, b) :: writeByte rest n v

/-- The canonical form: offsets strictly rising and no listed byte equal to the unlisted one. -/
def Buffer.wf : Buffer → Bool
  | [] => true
  | (k, b) :: rest => b != unlistedByte && rest.all (fun e => k < e.1) && Buffer.wf rest

/-- Size in bytes of the buffer of a region of `n` trytes: the least integer not below 1.5 n (R52). -/
def bufferBytes (n : Nat) : Nat := (3 * n + 1) / 2

/-- Byte offset of tryte `n`'s 16-bit window (R52). -/
def windowByte (n : Nat) : Nat := 12 * n / 8

/-- Bit offset of tryte `n` in its window: 0 or 4 (R52). -/
def windowBit (n : Nat) : Nat := 12 * n % 8

/-- The 16-bit window of tryte `n`, the lower byte in bits 7:0 (R53, R55). -/
def window (buf : Buffer) (n : Nat) : BitVec 16 :=
  (readByte buf (windowByte n)).setWidth 16 ||| (readByte buf (windowByte n + 1)).setWidth 16 <<< 8

/-- CodecRead: the 12 bits of tryte `n` (R53). -/
def codecRead (buf : Buffer) (n : Nat) : Tryte :=
  ((window buf n >>> windowBit n) &&& 0x0FFF#16).setWidth 12

/-- The window of tryte `n` with its 12 bits replaced (R54). -/
def windowWith (buf : Buffer) (n : Nat) (v : Tryte) : BitVec 16 :=
  (window buf n &&& ~~~(0x0FFF#16 <<< windowBit n)) ||| (v.setWidth 16 <<< windowBit n)

/-- CodecWrite: replace the 12 bits of tryte `n` and no other bit (R54). -/
def codecWrite (buf : Buffer) (n : Nat) (v : Tryte) : Buffer :=
  writeByte (writeByte buf (windowByte n) ((windowWith buf n v).extractLsb' 0 8))
    (windowByte n + 1) ((windowWith buf n v).extractLsb' 8 8)

/-- The four buffers (R39, R58). -/
inductive BufferName where
  | ram
  | fb
  | cit
  | pal
deriving DecidableEq, Repr

/-- The memory of the machine: RAM and the three device buffers (R39). -/
structure Memory where
  ram : Buffer
  fb : Buffer
  cit : Buffer
  pal : Buffer
deriving DecidableEq, Repr

/-- Memory with nothing listed. -/
def Memory.empty : Memory := ⟨[], [], [], []⟩

/-- One of the four buffers. -/
def Memory.get (m : Memory) : BufferName → Buffer
  | .ram => m.ram
  | .fb => m.fb
  | .cit => m.cit
  | .pal => m.pal

/-- Replace one of the four buffers. -/
def Memory.set (m : Memory) (b : BufferName) (buf : Buffer) : Memory :=
  match b with
  | .ram => { m with ram := buf }
  | .fb => { m with fb := buf }
  | .cit => { m with cit := buf }
  | .pal => { m with pal := buf }

/-- Every buffer is in canonical form. -/
def Memory.wf (m : Memory) : Bool := Buffer.wf m.ram && Buffer.wf m.fb && Buffer.wf m.cit && Buffer.wf m.pal

end Sys2Proof.Machine
end

