-- ==== Sys2Proof/Machine/State.lean ====
section
/-!
DEFINITION. The state of the TRIAD-6 core (10_state.md R20 to R39), the reasons a step can stop, and the machine after
reset (70_reset_and_hazards.md R360 to R368).
-/

namespace Sys2Proof.Machine

/-- The arithmetic mode trit `F.BU`: +1 balanced, -1 unbalanced. The value 0 is not a state of the machine (R35,
R342); it is left out of the type (log 6). -/
inductive ArithMode where
  | balanced
  | unbalanced
deriving DecidableEq, Repr

/-- The interrupt-enable trit `F.I`: +1 set, -1 clear. The value 0 is not a state of the machine (R34, R342). No rule
reads the trit (R343). -/
inductive IntEnable where
  | set
  | clear
deriving DecidableEq, Repr

/-- The flag register F: one trit per field (R30). Its 12 packed bits are `Flags.pack`. -/
structure Flags where
  /-- trit 5, sign (R31) -/
  s : Trit
  /-- trit 4, overflow and underflow (R32) -/
  ou : Trit
  /-- trit 3, carry and borrow (R33) -/
  cb : Trit
  /-- trit 2, interrupt-enable (R34) -/
  i : IntEnable
  /-- trit 1, arithmetic mode (R35) -/
  bu : ArithMode
  /-- trit 0, reserved (R36) -/
  r0 : Trit
deriving DecidableEq, Repr

/-- The current micro-operation: an instruction and a step counted from 1 (R29, R172). -/
structure Uop where
  op : Op
  step : Nat
deriving DecidableEq, Repr

/-- PHASE and UOP (R29): UOP has a meaning in Execute only, so it stands there (log 7). -/
inductive Phase where
  | fetch
  | execute (u : Uop)
deriving DecidableEq, Repr

/-- The state. Every field but `cfg` is state that the spec names (R20); `cfg` is the configuration of R4, which no
step changes (R21, log 2). -/
structure State where
  /-- the implementation parameters, fixed at construction -/
  cfg : Config
  /-- accumulator (R22) -/
  a : Tryte
  /-- counter (R22) -/
  c : Tryte
  /-- data (R22) -/
  d : Tryte
  /-- index (R22) -/
  x : Tryte
  /-- index (R22) -/
  y : Tryte
  /-- flag register (R30) -/
  f : Flags
  /-- program counter (R24) -/
  pc : UWord
  /-- stack pointer (R26) -/
  sp : UWord
  /-- data-bus latch (R27) -/
  db : Tryte
  /-- address latch (R28) -/
  al : UWord
  /-- phase and current micro-operation (R29) -/
  phase : Phase
  /-- RAM and the device buffers (R39) -/
  mem : Memory
deriving DecidableEq, Repr

/-- The one fault (R341). -/
inductive Fault where
  /-- A tryte read from a mapped buffer at `addr` has a field holding 3. Raised by `readB` and `readU`, so by every
  opcode fetch, operand read, pointer read and load. Safe: the run ends where the spec ends it (R63, R341). -/
  | tritInvariantViolation (addr : UWord)
deriving DecidableEq, Repr

/-- What the model declines to define (R342). No instruction's meaning ends in a refusal. -/
inductive Refusal where
  /-- An instruction without a meaning. Raised by no arm of `exec`: every instruction has its meaning. Safe. -/
  | notModelled (mnemonic : String)
  /-- A shift by a negative count (R146). Raised by `checkedShift`. Safe. -/
  | negativeShiftCount
  /-- A configuration that breaks R62 or the other constraints of R4, or an invalid memory shape: no machine exists
  (R355). Raised by `construct`. Safe. -/
  | badConfiguration
  /-- A tick in Execute whose UOP is no step of its instruction's chain: not a state of the machine (R29, R172).
  Raised by `tick`, and by `step` in such a state. Safe (log 13). -/
  | noSuchMicroOperation
  /-- A host write to a byte that the buffer does not have (R52). Raised by `hostWrite`. Safe (log 13). -/
  | outsideBuffer
deriving DecidableEq, Repr

/-- F after reset: BU and I set, the others 0 (R362). -/
def resetFlags : Flags :=
  { s := .zero, ou := .zero, cb := .zero, i := .set, bu := .balanced, r0 := .zero }

/-- The machine right after its construction from a configuration and a memory image (R360 to R368). -/
def State.resetWith (cfg : Config) (image : Memory) : State where
  cfg := cfg
  a := 0x555#12
  c := 0x555#12
  d := 0x555#12
  x := 0x555#12
  y := 0x555#12
  f := resetFlags
  pc := cfg.resetPc
  sp := cfg.resetSp
  db := 0x555#12
  al := 0x000000#24
  phase := .fetch
  mem := image

/-- The machine right after reset, under TEST_CONFIG with nothing listed in memory (R368; logs 3, 4). -/
def State.reset : State := State.resetWith testConfig Memory.empty

end Sys2Proof.Machine
end

