-- ==== Sys2Proof/Machine/Flags.lean ====
section
/-!
DEFINITION. The flag register: its packed form and its trits (10_state.md R30 to R37), the conditions of the branches
(46_control_flow.md R301), the flag-set updates (47_flag_ops.md R330 to R335) and the two add functions with their flags
(44_add.md R260 to R262).
-/

namespace Sys2Proof.Machine

/-- The digit of the mode trit (R35). -/
def ArithMode.trit : ArithMode → Trit
  | .balanced => .pos
  | .unbalanced => .neg

/-- The digit of the interrupt-enable trit (R34). -/
def IntEnable.trit : IntEnable → Trit
  | .set => .pos
  | .clear => .neg

/-- The 12 packed bits of F: trits S, OU, CB, I, BU, R0 from trit 5 down (R30). -/
def Flags.pack (f : Flags) : Tryte := tryteOfTrits f.s f.ou f.cb f.i.trit f.bu.trit f.r0

/-- The flag register that 12 packed bits stand for; none where a field holds 3 or where I or BU would be 0 (R38,
R342). -/
def Flags.unpack (b : Tryte) : Option Flags := do
  let s ← Trit.ofCode (b.extractLsb' 10 2).toNat
  let ou ← Trit.ofCode (b.extractLsb' 8 2).toNat
  let cb ← Trit.ofCode (b.extractLsb' 6 2).toNat
  let i ← match (b.extractLsb' 4 2).toNat with
    | 2 => some IntEnable.set
    | 0 => some IntEnable.clear
    | _ => none
  let bu ← match (b.extractLsb' 2 2).toNat with
    | 2 => some ArithMode.balanced
    | 0 => some ArithMode.unbalanced
    | _ => none
  let r0 ← Trit.ofCode (b.extractLsb' 0 2).toNat
  some { s, ou, cb, i, bu, r0 }

/-- A status trit of F. -/
def Flags.status (f : Flags) : StatusTrit → Trit
  | .s => f.s
  | .ou => f.ou
  | .cb => f.cb

/-- Whether a branch condition holds on F (R301). -/
def condHolds (c : Cond) (f : Flags) : Bool := (f.status c.which == c.value) != c.negated

/-- FLAG_TOGGLE of a configuration (R335). -/
def toggleApply (t : Toggle) : Trit → Trit
  | .neg => t.onNeg
  | .zero => t.onZero
  | .pos => t.onPos

/-- The new value of a three-state trit that SETOU or SETCB writes with operand value `v` (R331, R332). -/
def setStatusTrit (tog : Toggle) (v : Int) (old : Trit) : Trit :=
  if v = 1 then .pos else if v = -1 then .neg else if v = 0 then toggleApply tog old else old

/-- The flag-set update with operand value `v` (R330 to R334). -/
def Flags.setBy (f : Flags) (tog : Toggle) (sel : FlagSel) (v : Int) : Flags :=
  match sel with
  | .ou => { f with ou := setStatusTrit tog v f.ou }
  | .cb => { f with cb := setStatusTrit tog v f.cb }
  | .i => { f with i := if v = 1 then .set else if v = -1 then .clear else f.i }
  | .bu => { f with bu := if v = 1 then .balanced else if v = -1 then .unbalanced else f.bu }

/-- ADDDB_DELTA as a number (R262). -/
def deltaInt : AdddbDelta → Int
  | .minusOne => -1
  | .plusOne => 1

/-- The increment `d` of an add, from the old `F.CB` (R262). -/
def addIncrement (delta : AdddbDelta) (cb : Trit) (src : AddSource) (k : AddKind) : Int :=
  match k with
  | .plain => 0
  | .carry => if cb = .pos then 1 else 0
  | .borrow => if cb = .neg then (match src with | .imm => -1 | .regD => deltaInt delta) else 0

/-- The overflow trit of a balanced add: accumulator `a`, operand `m`, result `r` (R260). -/
def overflowTrit (a m r : Int) : Trit :=
  if m > 0 ∧ r < a then .pos else if m < 0 ∧ r > a then .neg else .zero

/-- The balanced add: new accumulator and flags (R260). -/
def addBalanced (f : Flags) (acc m12 : Tryte) (d : Int) : Tryte × Flags :=
  let a := valB acc
  let m := valB m12
  let r := wrapB (a + m + d)
  (encB r, { f with s := sgn r, ou := overflowTrit a m r })

/-- The unbalanced add: new accumulator and flags (R261). -/
def addUnbalanced (f : Flags) (acc m12 : Tryte) (d : Int) : Tryte × Flags :=
  let a : Int := valU (toUTryte acc)
  let m : Int := valU m12
  let r := (a + m + d) % tryteRange
  (toTryte (encU r),
    { f with s := (if r = 0 then .zero else .pos), cb := (if r < a then .pos else .zero) })

/-- The add of the mode in force (44_add.md). -/
def addByMode (f : Flags) (acc m12 : Tryte) (d : Int) : Tryte × Flags :=
  match f.bu with
  | .balanced => addBalanced f acc m12 d
  | .unbalanced => addUnbalanced f acc m12 d

end Sys2Proof.Machine
end

