-- ==== Sys2Proof/Machine/Ops.lean ====
section
/-!
DEFINITION. The named operations over registers and memory: the register file, the address decoder and the four access
functions (20_memory.md R57 to R63), and the micro-operation primitives that the chains and the meanings share
(42_fetch_execute.md R175 to R187).

TAKING AN EXCEPTION. The core has none: no cause, no saved state, no vector, no entry and no return (60_exceptions.md R340,
R343, R345, R346). The one thing that can stop a tick is `raiseTritInvariant` (R341), which saves nothing.
-/

namespace Sys2Proof.Machine

/-- Read a general register (R22). -/
def State.reg (s : State) : Reg → Tryte
  | .a => s.a
  | .c => s.c
  | .d => s.d
  | .x => s.x
  | .y => s.y

/-- Write a general register (R22). -/
def State.setReg (s : State) (r : Reg) (v : Tryte) : State :=
  match r with
  | .a => { s with a := v }
  | .c => { s with c := v }
  | .d => { s with d := v }
  | .x => { s with x := v }
  | .y => { s with y := v }

/-- Where an address leads: tryte `n` of a buffer, or nowhere (R58). -/
inductive Location where
  | mapped (b : BufferName) (n : Nat)
  | unmapped
deriving DecidableEq, Repr

/-- The address decoder on the number `v` of an address (R58, R60). -/
def locate (cfg : Config) (v : Nat) : Location :=
  if v < cfg.ramSize then .mapped .ram v
  else if cfg.fbBase ≤ v ∧ v < cfg.fbBase + cfg.fbSize then .mapped .fb (v - cfg.fbBase)
  else if cfg.citBase ≤ v ∧ v < cfg.citBase + cfg.citSize then .mapped .cit (v - cfg.citBase)
  else if cfg.palBase ≤ v ∧ v < cfg.palBase + cfg.palSize then .mapped .pal (v - cfg.palBase)
  else .unmapped

/-- The 12 bits that memory holds at address number `v`; none where nothing is mapped (R51, R58). -/
def State.cell (s : State) (v : Nat) : Option Tryte :=
  match locate s.cfg v with
  | .mapped b n => some (codecRead (s.mem.get b) n)
  | .unmapped => none

/-- Size in trytes of the region behind a buffer (R52, R58). -/
def regionSize (cfg : Config) : BufferName → Nat
  | .ram => cfg.ramSize
  | .fb => cfg.fbSize
  | .cit => cfg.citSize
  | .pal => cfg.palSize

/-- The one fault (R341). -/
def raiseTritInvariant {α : Type} (addr : UWord) : Except Fault α := .error (.tritInvariantViolation addr)

/-- A tryte read at `addr` that returns `zero` where nothing is mapped (R57, R61, R63). -/
def State.readOr (s : State) (zero : Tryte) (addr : UWord) : Except Fault Tryte :=
  match s.cell (valU12 addr) with
  | some t => if validTryte t then .ok t else raiseTritInvariant addr
  | none => .ok zero

/-- ReadB (R57, R61). -/
def State.readB (s : State) (addr : UWord) : Except Fault Tryte := s.readOr 0x555#12 addr

/-- ReadU (R57, R61). -/
def State.readU (s : State) (addr : UWord) : Except Fault UTryte := s.readOr 0x000#12 addr

/-- A tryte write; nothing happens where nothing is mapped (R57, R59 to R61). -/
def State.writeCell (s : State) (addr : UWord) (t : Tryte) : State :=
  match locate s.cfg (valU12 addr) with
  | .mapped b n => { s with mem := s.mem.set b (codecWrite (s.mem.get b) n t) }
  | .unmapped => s

/-- WriteB (R57). -/
def State.writeB (s : State) (addr : UWord) (t : Tryte) : State := s.writeCell addr t

/-- WriteU (R57): the same function of the 12 bits as WriteB. -/
def State.writeU (s : State) (addr : UWord) (u : UTryte) : State := s.writeCell addr u

/-- RdM: a data read in the current mode (R175). -/
def State.rdM (s : State) (addr : UWord) : Except Fault Tryte :=
  match s.f.bu with
  | .balanced => s.readB addr
  | .unbalanced => s.readU addr

/-- WrM: a data write in the current mode (R175). -/
def State.wrM (s : State) (addr : UWord) (t : Tryte) : State :=
  match s.f.bu with
  | .balanced => s.writeB addr t
  | .unbalanced => s.writeU addr t

/-- fromBus: the register value of the 12 bits on DB (R175). -/
def fromBus (m : ArithMode) (b : Tryte) : Tryte :=
  match m with
  | .balanced => b
  | .unbalanced => toTryte b

/-- toBus: the 12 bits that a register value is stored as (R175). -/
def toBus (m : ArithMode) (r : Tryte) : Tryte :=
  match m with
  | .balanced => r
  | .unbalanced => toUTryte r

/-- signM: the sign of the 12 bits on DB (R175). -/
def signM (m : ArithMode) (b : Tryte) : Trit :=
  match m with
  | .balanced => signB b
  | .unbalanced => signU b

/-- An operand tryte taken from the instruction stream: onto DB, past it with PC. The second half of the fetch (R171),
of OPREAD (R176) and of the immediate forms (R180). -/
def State.takeTryte (s : State) (t : Tryte) : State := { s with db := t, pc := incW s.pc }

/-- LOREAD with the tryte `t` read: DB into AL.lo, `t` onto DB (R177). -/
def State.takeHigh (s : State) (t : Tryte) : State :=
  { s with al := wordOf s.db (hiTryte s.al), db := t, pc := incW s.pc }

/-- HISET: DB into AL.hi (R178). -/
def State.hiset (s : State) : State := { s with al := wordOf (loTryte s.al) s.db }

/-- The index add on an address: the register taken as a signed balanced value in both modes (R179). -/
def indexed (base : UWord) (r : Tryte) : UWord := encU12 (valU12 base + valU12 (toUWordS r))

/-- Index add on AL (R179). -/
def State.indexAdd (s : State) (r : Reg) : State := { s with al := indexed s.al (s.reg r) }

/-- Pointer low tryte: DB from AL (R183, step 3). -/
def State.pointerLow (s : State) : Except Fault State := do
  let t ← s.readU s.al
  .ok { s with db := t }

/-- Pointer high tryte from AL + 1, and AL becomes the pointer (R183, step 4). -/
def State.pointerHigh (s : State) : Except Fault State := do
  let h ← s.readU (incW s.al)
  .ok { s with al := wordOf s.db h, db := h }

/-- What a load does with the datum `b` once read: DB, the register, F.S (R186). -/
def State.loadDatum (s : State) (r : Reg) (b : Tryte) : State :=
  ({ s with db := b, f := { s.f with s := signM s.f.bu b } } : State).setReg r (fromBus s.f.bu b)

/-- The load access at AL (R186). -/
def State.loadAccess (s : State) (r : Reg) : Except Fault State := do
  let b ← s.rdM s.al
  .ok (s.loadDatum r b)

/-- The store access at AL (R187). -/
def State.storeAccess (s : State) (r : Reg) : State :=
  ({ s with db := toBus s.f.bu (s.reg r) } : State).wrM s.al (toBus s.f.bu (s.reg r))

/-- PC from AL (R300). -/
def State.jumpToAl (s : State) : State := { s with pc := s.al }

/-- The add of operand pattern `m12` into A with its flags (R260 to R262). -/
def State.addOperand (s : State) (src : AddSource) (k : AddKind) (m12 : Tryte) : State :=
  let r := addByMode s.f s.a m12 (addIncrement s.cfg.adddbDelta s.f.cb src k)
  { s with a := r.1, f := r.2 }

/-- The add of register D (R266 to R268). -/
def State.addRegD (s : State) (k : AddKind) : State := s.addOperand .regD k (toBus s.f.bu s.d)

/-- The flag-set update with operand tryte `v` (R330). -/
def State.setFlag (s : State) (sel : FlagSel) (v : Tryte) : State :=
  { s with f := s.f.setBy s.cfg.flagToggle sel (valB v) }

/-- Source register of a transfer (R270). -/
def xferSrc : Xfer → Reg
  | .tac | .tad | .tax | .tay => .a
  | .tca | .tcd | .tcx | .tcy => .c
  | .tda | .tdc | .tdx | .tdy => .d
  | .txa | .txc | .txd | .txy => .x
  | .tya | .tyc | .tyd | .tyx => .y

/-- Destination register of a transfer (R270). -/
def xferDst : Xfer → Reg
  | .tca | .tda | .txa | .tya => .a
  | .tac | .tdc | .txc | .tyc => .c
  | .tad | .tcd | .txd | .tyd => .d
  | .tax | .tcx | .tdx | .tyx => .x
  | .tay | .tcy | .tdy | .txy => .y

/-- A register transfer: all 12 bits, no flag (R270). -/
def State.copyReg (s : State) (t : Xfer) : State := s.setReg (xferDst t) (s.reg (xferSrc t))

/-- TYXSP step 1 (R291). -/
def State.spLowFromX (s : State) : State := { s with sp := wordOf (toUTryte s.x) (hiTryte s.sp) }

/-- TYXSP step 2 (R291). -/
def State.spHighFromY (s : State) : State := { s with sp := wordOf (loTryte s.sp) (toUTryte s.y) }

/-- TSPYX step 1 (R292). -/
def State.xFromSpLow (s : State) : State := { s with x := toTryte (loTryte s.sp) }

/-- TSPYX step 2 (R292). -/
def State.yFromSpHigh (s : State) : State := { s with y := toTryte (hiTryte s.sp) }

/-- The end of an instruction: PHASE becomes Fetch (R172). -/
def State.endInstr (s : State) : State := { s with phase := .fetch }

/-- The outcome of an instruction whose execution is `r`: the next state at the instruction boundary, or the fault. -/
def finish : Except Fault State → Host.Outcome State Fault Refusal
  | .ok s => .next s.endInstr
  | .error e => .fault e

end Sys2Proof.Machine
end

