-- ==== Sys2Proof/Machine/Operands.lean ====
section
/-!
DEFINITION. The operand forms: how an instruction takes its operand trytes from the stream and forms its effective address
in AL (42_fetch_execute.md R180 to R184).
-/

namespace Sys2Proof.Machine

/-- The operand word of an ABS3 instruction taken whole: steps OPREAD, LOREAD and HISET (R176 to R178). Afterwards AL
is the word and DB its high tryte. -/
def State.takeWord (s : State) (w : UWord) : State :=
  ((s.takeTryte (loTryte w)).takeHigh (hiTryte w)).hiset

/-- The pointer at AL followed: AL becomes the word there (R183). -/
def State.followPointer (s : State) : Except Fault State := do
  let s' ← s.pointerLow
  s'.pointerHigh

/-- AL becomes the effective address of mode `m` with operand word `w` (R181 to R184). -/
def State.latchAddress (s : State) (m : AddrMode) (w : UWord) : Except Fault State :=
  match m with
  | .abs => .ok (s.takeWord w)
  | .absX => .ok ((s.takeWord w).indexAdd .x)
  | .absY => .ok ((s.takeWord w).indexAdd .y)
  | .ind => (s.takeWord w).followPointer
  | .indX => do let s' ← (s.takeWord w).followPointer; .ok (s'.indexAdd .x)
  | .indY => do let s' ← (s.takeWord w).followPointer; .ok (s'.indexAdd .y)

/-- A store mode as an addressing mode (R201). -/
def stAddr : StMode → AddrMode
  | .abs => .abs
  | .absX => .absX
  | .absY => .absY

/-- The effective address of a store (R181, R182). -/
def State.storeAddress (s : State) (m : StMode) (w : UWord) : UWord :=
  match m with
  | .abs => w
  | .absX => indexed w s.x
  | .absY => indexed w s.y

/-- The pointer word at address `w`, low tryte first (R183). -/
def State.pointerAt (s : State) (w : UWord) : Except Fault UWord := do
  let lo ← s.readU w
  let hi ← s.readU (incW w)
  .ok (wordOf lo hi)

/-- The effective address of a load from memory (R181 to R184). -/
def State.loadAddress (s : State) (m : AddrMode) (w : UWord) : Except Fault UWord :=
  match m with
  | .abs => .ok w
  | .absX => .ok (indexed w s.x)
  | .absY => .ok (indexed w s.y)
  | .ind => s.pointerAt w
  | .indX => do let p ← s.pointerAt w; .ok (indexed p s.x)
  | .indY => do let p ← s.pointerAt w; .ok (indexed p s.y)

end Sys2Proof.Machine
end

