-- ==== Sys2Proof/Machine/Adds.lean ====
section
/-!
DEFINITION. The adds (44_add.md R260 to R268).

A meaning runs on the state right after the fetch tick: DB holds the opcode tryte and PC the address of the next tryte
(R171; log 10). It ends at the instruction boundary.
-/

namespace Sys2Proof.Machine

/-- An add of the operand tryte `v` (R180, R263 to R265). -/
def addImmediate (k : AddKind) (v : Tryte) (s : State) : Host.Outcome State Fault Refusal :=
  finish (.ok ((s.takeTryte v).addOperand .imm k v))

/-- An add of register D (R266 to R268). -/
def addData (k : AddKind) (s : State) : Host.Outcome State Fault Refusal :=
  finish (.ok (s.addRegD k))

/-- `ADD #v` (R263). -/
def execAdd (v : Tryte) (s : State) : Host.Outcome State Fault Refusal := addImmediate .plain v s

/-- `ADDC #v` (R264). -/
def execAddc (v : Tryte) (s : State) : Host.Outcome State Fault Refusal := addImmediate .carry v s

/-- `ADDB #v` (R265). -/
def execAddb (v : Tryte) (s : State) : Host.Outcome State Fault Refusal := addImmediate .borrow v s

/-- `ADDD` (R266). -/
def execAddd (s : State) : Host.Outcome State Fault Refusal := addData .plain s

/-- `ADDDC` (R267). -/
def execAdddc (s : State) : Host.Outcome State Fault Refusal := addData .carry s

/-- `ADDDB` (R268). -/
def execAdddb (s : State) : Host.Outcome State Fault Refusal := addData .borrow s

end Sys2Proof.Machine
end

