-- ==== Sys2Proof/Machine/Control.lean ====
section
/-!
DEFINITION. The jump and the conditional branches (46_control_flow.md R300 to R319).

A meaning runs on the state right after the fetch tick: DB holds the opcode tryte and PC the address of the next tryte
(R171; log 10). It ends at the instruction boundary.
-/

namespace Sys2Proof.Machine

/-- `JMP a` (R300). -/
def execJmp (w : UWord) (s : State) : Host.Outcome State Fault Refusal := finish (.ok (s.takeWord w).jumpToAl)

/-- A conditional branch: both target trytes are read; the condition is tested after the second; only a taken branch
completes AL and writes PC (R301). -/
def branchOn (c : Cond) (w : UWord) (s : State) : Host.Outcome State Fault Refusal :=
  let s' := (s.takeTryte (loTryte w)).takeHigh (hiTryte w)
  finish (.ok (if condHolds c s'.f then s'.hiset.jumpToAl else s'))

/-- `BPOS a` (R302). -/
def execBpos (w : UWord) (s : State) : Host.Outcome State Fault Refusal := branchOn ⟨.s, .pos, false⟩ w s

/-- `BZER a` (R303). -/
def execBzer (w : UWord) (s : State) : Host.Outcome State Fault Refusal := branchOn ⟨.s, .zero, false⟩ w s

/-- `BNEG a` (R304). -/
def execBneg (w : UWord) (s : State) : Host.Outcome State Fault Refusal := branchOn ⟨.s, .neg, false⟩ w s

/-- `BNPOS a` (R305). -/
def execBnpos (w : UWord) (s : State) : Host.Outcome State Fault Refusal := branchOn ⟨.s, .pos, true⟩ w s

/-- `BNZER a` (R306). -/
def execBnzer (w : UWord) (s : State) : Host.Outcome State Fault Refusal := branchOn ⟨.s, .zero, true⟩ w s

/-- `BNNEG a` (R307). -/
def execBnneg (w : UWord) (s : State) : Host.Outcome State Fault Refusal := branchOn ⟨.s, .neg, true⟩ w s

/-- `BOVF a` (R308). -/
def execBovf (w : UWord) (s : State) : Host.Outcome State Fault Refusal := branchOn ⟨.ou, .pos, false⟩ w s

/-- `BNEU a` (R309). -/
def execBneu (w : UWord) (s : State) : Host.Outcome State Fault Refusal := branchOn ⟨.ou, .zero, false⟩ w s

/-- `BUNF a` (R310). -/
def execBunf (w : UWord) (s : State) : Host.Outcome State Fault Refusal := branchOn ⟨.ou, .neg, false⟩ w s

/-- `BNOVF a` (R311). -/
def execBnovf (w : UWord) (s : State) : Host.Outcome State Fault Refusal := branchOn ⟨.ou, .pos, true⟩ w s

/-- `BNNEU a` (R312). -/
def execBnneu (w : UWord) (s : State) : Host.Outcome State Fault Refusal := branchOn ⟨.ou, .zero, true⟩ w s

/-- `BNUNF a` (R313). -/
def execBnunf (w : UWord) (s : State) : Host.Outcome State Fault Refusal := branchOn ⟨.ou, .neg, true⟩ w s

/-- `BCAR a` (R314). -/
def execBcar (w : UWord) (s : State) : Host.Outcome State Fault Refusal := branchOn ⟨.cb, .pos, false⟩ w s

/-- `BNCB a` (R315). -/
def execBncb (w : UWord) (s : State) : Host.Outcome State Fault Refusal := branchOn ⟨.cb, .zero, false⟩ w s

/-- `BBOR a` (R316). -/
def execBbor (w : UWord) (s : State) : Host.Outcome State Fault Refusal := branchOn ⟨.cb, .neg, false⟩ w s

/-- `BNCAR a` (R317). -/
def execBncar (w : UWord) (s : State) : Host.Outcome State Fault Refusal := branchOn ⟨.cb, .pos, true⟩ w s

/-- `BCOB a` (R318). -/
def execBcob (w : UWord) (s : State) : Host.Outcome State Fault Refusal := branchOn ⟨.cb, .zero, true⟩ w s

/-- `BNBOR a` (R319). -/
def execBnbor (w : UWord) (s : State) : Host.Outcome State Fault Refusal := branchOn ⟨.cb, .neg, true⟩ w s

end Sys2Proof.Machine
end

