-- ==== Sys2Proof/Machine/FlagOps.lean ====
section
/-!
DEFINITION. The flag-set instructions and the invalid operation (47_flag_ops.md R330 to R336).

A meaning runs on the state right after the fetch tick: DB holds the opcode tryte and PC the address of the next tryte
(R171; log 10). It ends at the instruction boundary.
-/

namespace Sys2Proof.Machine

/-- A flag-set instruction with operand tryte `v` (R330). -/
def flagSet (sel : FlagSel) (v : Tryte) (s : State) : Host.Outcome State Fault Refusal :=
  finish (.ok ((s.takeTryte v).setFlag sel v))

/-- `SETOU v` (R331). -/
def execSetou (v : Tryte) (s : State) : Host.Outcome State Fault Refusal := flagSet .ou v s

/-- `SETCB v` (R332). -/
def execSetcb (v : Tryte) (s : State) : Host.Outcome State Fault Refusal := flagSet .cb v s

/-- `SETI v` (R333). -/
def execSeti (v : Tryte) (s : State) : Host.Outcome State Fault Refusal := flagSet .i v s

/-- `SETBU v` (R334). -/
def execSetbu (v : Tryte) (s : State) : Host.Outcome State Fault Refusal := flagSet .bu v s

/-- `INVALID`: nothing changes and the instruction ends (R336). -/
def execInvalid (s : State) : Host.Outcome State Fault Refusal := finish (.ok s)

end Sys2Proof.Machine
end

