-- ==== Sys2Proof/Machine/Loads.lean ====
section
/-!
DEFINITION. The loads (43_load_store.md R200, R202 to R236).

A meaning runs on the state right after the fetch tick: DB holds the opcode tryte and PC the address of the next tryte
(R171; log 10). It ends at the instruction boundary.
-/

namespace Sys2Proof.Machine

/-- A load from the operand tryte `v` (R180, R186, R200). -/
def loadImmediate (r : Reg) (v : Tryte) (s : State) : Host.Outcome State Fault Refusal :=
  finish (.ok ((s.takeTryte v).loadDatum r v))

/-- A load from memory by mode `m` with operand word `w` (R181 to R184, R186, R200). -/
def loadMemory (r : Reg) (m : AddrMode) (w : UWord) (s : State) : Host.Outcome State Fault Refusal :=
  finish (do
    let s' ← s.latchAddress m w
    s'.loadAccess r)

/-- `LDA #v` (R202). -/
def execLdaImm (v : Tryte) (s : State) : Host.Outcome State Fault Refusal := loadImmediate .a v s

/-- `LDA a` (R203). -/
def execLdaAbs (w : UWord) (s : State) : Host.Outcome State Fault Refusal := loadMemory .a .abs w s

/-- `LDA a,X` (R204). -/
def execLdaAbsX (w : UWord) (s : State) : Host.Outcome State Fault Refusal := loadMemory .a .absX w s

/-- `LDA a,Y` (R205). -/
def execLdaAbsY (w : UWord) (s : State) : Host.Outcome State Fault Refusal := loadMemory .a .absY w s

/-- `LDA (a)` (R206). -/
def execLdaInd (w : UWord) (s : State) : Host.Outcome State Fault Refusal := loadMemory .a .ind w s

/-- `LDA (a),X` (R207). -/
def execLdaIndX (w : UWord) (s : State) : Host.Outcome State Fault Refusal := loadMemory .a .indX w s

/-- `LDA (a),Y` (R208). -/
def execLdaIndY (w : UWord) (s : State) : Host.Outcome State Fault Refusal := loadMemory .a .indY w s

/-- `LDC #v` (R209). -/
def execLdcImm (v : Tryte) (s : State) : Host.Outcome State Fault Refusal := loadImmediate .c v s

/-- `LDC a` (R210). -/
def execLdcAbs (w : UWord) (s : State) : Host.Outcome State Fault Refusal := loadMemory .c .abs w s

/-- `LDC a,X` (R211). -/
def execLdcAbsX (w : UWord) (s : State) : Host.Outcome State Fault Refusal := loadMemory .c .absX w s

/-- `LDC a,Y` (R212). -/
def execLdcAbsY (w : UWord) (s : State) : Host.Outcome State Fault Refusal := loadMemory .c .absY w s

/-- `LDC (a)` (R213). -/
def execLdcInd (w : UWord) (s : State) : Host.Outcome State Fault Refusal := loadMemory .c .ind w s

/-- `LDC (a),X` (R214). -/
def execLdcIndX (w : UWord) (s : State) : Host.Outcome State Fault Refusal := loadMemory .c .indX w s

/-- `LDC (a),Y` (R215). -/
def execLdcIndY (w : UWord) (s : State) : Host.Outcome State Fault Refusal := loadMemory .c .indY w s

/-- `LDD #v` (R216). -/
def execLddImm (v : Tryte) (s : State) : Host.Outcome State Fault Refusal := loadImmediate .d v s

/-- `LDD a` (R217). -/
def execLddAbs (w : UWord) (s : State) : Host.Outcome State Fault Refusal := loadMemory .d .abs w s

/-- `LDD a,X` (R218). -/
def execLddAbsX (w : UWord) (s : State) : Host.Outcome State Fault Refusal := loadMemory .d .absX w s

/-- `LDD a,Y` (R219). -/
def execLddAbsY (w : UWord) (s : State) : Host.Outcome State Fault Refusal := loadMemory .d .absY w s

/-- `LDD (a)` (R220). -/
def execLddInd (w : UWord) (s : State) : Host.Outcome State Fault Refusal := loadMemory .d .ind w s

/-- `LDD (a),X` (R221). -/
def execLddIndX (w : UWord) (s : State) : Host.Outcome State Fault Refusal := loadMemory .d .indX w s

/-- `LDD (a),Y` (R222). -/
def execLddIndY (w : UWord) (s : State) : Host.Outcome State Fault Refusal := loadMemory .d .indY w s

/-- `LDX #v` (R223). -/
def execLdxImm (v : Tryte) (s : State) : Host.Outcome State Fault Refusal := loadImmediate .x v s

/-- `LDX a` (R224). -/
def execLdxAbs (w : UWord) (s : State) : Host.Outcome State Fault Refusal := loadMemory .x .abs w s

/-- `LDX a,X` (R225). -/
def execLdxAbsX (w : UWord) (s : State) : Host.Outcome State Fault Refusal := loadMemory .x .absX w s

/-- `LDX a,Y` (R226). -/
def execLdxAbsY (w : UWord) (s : State) : Host.Outcome State Fault Refusal := loadMemory .x .absY w s

/-- `LDX (a)` (R227). -/
def execLdxInd (w : UWord) (s : State) : Host.Outcome State Fault Refusal := loadMemory .x .ind w s

/-- `LDX (a),X` (R228). -/
def execLdxIndX (w : UWord) (s : State) : Host.Outcome State Fault Refusal := loadMemory .x .indX w s

/-- `LDX (a),Y` (R229). -/
def execLdxIndY (w : UWord) (s : State) : Host.Outcome State Fault Refusal := loadMemory .x .indY w s

/-- `LDY #v` (R230). -/
def execLdyImm (v : Tryte) (s : State) : Host.Outcome State Fault Refusal := loadImmediate .y v s

/-- `LDY a` (R231). -/
def execLdyAbs (w : UWord) (s : State) : Host.Outcome State Fault Refusal := loadMemory .y .abs w s

/-- `LDY a,X` (R232). -/
def execLdyAbsX (w : UWord) (s : State) : Host.Outcome State Fault Refusal := loadMemory .y .absX w s

/-- `LDY a,Y` (R233). -/
def execLdyAbsY (w : UWord) (s : State) : Host.Outcome State Fault Refusal := loadMemory .y .absY w s

/-- `LDY (a)` (R234). -/
def execLdyInd (w : UWord) (s : State) : Host.Outcome State Fault Refusal := loadMemory .y .ind w s

/-- `LDY (a),X` (R235). -/
def execLdyIndX (w : UWord) (s : State) : Host.Outcome State Fault Refusal := loadMemory .y .indX w s

/-- `LDY (a),Y` (R236). -/
def execLdyIndY (w : UWord) (s : State) : Host.Outcome State Fault Refusal := loadMemory .y .indY w s

end Sys2Proof.Machine
end

