-- ==== Sys2Proof/Machine/Stores.lean ====
section
/-!
DEFINITION. The stores (43_load_store.md R201, R237 to R251).

A meaning runs on the state right after the fetch tick: DB holds the opcode tryte and PC the address of the next tryte
(R171; log 10). It ends at the instruction boundary.
-/

namespace Sys2Proof.Machine

/-- A store of register `r` by mode `m` with operand word `w` (R181, R182, R187, R201). -/
def storeMemory (r : Reg) (m : StMode) (w : UWord) (s : State) : Host.Outcome State Fault Refusal :=
  finish (do
    let s' ← s.latchAddress (stAddr m) w
    .ok (s'.storeAccess r))

/-- `STA a` (R237). -/
def execStaAbs (w : UWord) (s : State) : Host.Outcome State Fault Refusal := storeMemory .a .abs w s

/-- `STA a,X` (R238). -/
def execStaAbsX (w : UWord) (s : State) : Host.Outcome State Fault Refusal := storeMemory .a .absX w s

/-- `STA a,Y` (R239). -/
def execStaAbsY (w : UWord) (s : State) : Host.Outcome State Fault Refusal := storeMemory .a .absY w s

/-- `STC a` (R240). -/
def execStcAbs (w : UWord) (s : State) : Host.Outcome State Fault Refusal := storeMemory .c .abs w s

/-- `STC a,X` (R241). -/
def execStcAbsX (w : UWord) (s : State) : Host.Outcome State Fault Refusal := storeMemory .c .absX w s

/-- `STC a,Y` (R242). -/
def execStcAbsY (w : UWord) (s : State) : Host.Outcome State Fault Refusal := storeMemory .c .absY w s

/-- `STD a` (R243). -/
def execStdAbs (w : UWord) (s : State) : Host.Outcome State Fault Refusal := storeMemory .d .abs w s

/-- `STD a,X` (R244). -/
def execStdAbsX (w : UWord) (s : State) : Host.Outcome State Fault Refusal := storeMemory .d .absX w s

/-- `STD a,Y` (R245). -/
def execStdAbsY (w : UWord) (s : State) : Host.Outcome State Fault Refusal := storeMemory .d .absY w s

/-- `STX a` (R246). -/
def execStxAbs (w : UWord) (s : State) : Host.Outcome State Fault Refusal := storeMemory .x .abs w s

/-- `STX a,X` (R247). -/
def execStxAbsX (w : UWord) (s : State) : Host.Outcome State Fault Refusal := storeMemory .x .absX w s

/-- `STX a,Y` (R248). -/
def execStxAbsY (w : UWord) (s : State) : Host.Outcome State Fault Refusal := storeMemory .x .absY w s

/-- `STY a` (R249). -/
def execStyAbs (w : UWord) (s : State) : Host.Outcome State Fault Refusal := storeMemory .y .abs w s

/-- `STY a,X` (R250). -/
def execStyAbsX (w : UWord) (s : State) : Host.Outcome State Fault Refusal := storeMemory .y .absX w s

/-- `STY a,Y` (R251). -/
def execStyAbsY (w : UWord) (s : State) : Host.Outcome State Fault Refusal := storeMemory .y .absY w s

end Sys2Proof.Machine
end

