-- ==== Sys2Proof/Machine/Transfers.lean ====
section
/-!
DEFINITION. The register transfers and the stack-pointer transfers (45_transfer.md R270 to R292).

A meaning runs on the state right after the fetch tick: DB holds the opcode tryte and PC the address of the next tryte
(R171; log 10). It ends at the instruction boundary.
-/

namespace Sys2Proof.Machine

/-- A register transfer (R270). -/
def transfer (t : Xfer) (s : State) : Host.Outcome State Fault Refusal := finish (.ok (s.copyReg t))

/-- `TAC` (R271). -/
def execTac (s : State) : Host.Outcome State Fault Refusal := transfer .tac s

/-- `TAD` (R272). -/
def execTad (s : State) : Host.Outcome State Fault Refusal := transfer .tad s

/-- `TAX` (R273). -/
def execTax (s : State) : Host.Outcome State Fault Refusal := transfer .tax s

/-- `TAY` (R274). -/
def execTay (s : State) : Host.Outcome State Fault Refusal := transfer .tay s

/-- `TCA` (R275). -/
def execTca (s : State) : Host.Outcome State Fault Refusal := transfer .tca s

/-- `TCD` (R276). -/
def execTcd (s : State) : Host.Outcome State Fault Refusal := transfer .tcd s

/-- `TCX` (R277). -/
def execTcx (s : State) : Host.Outcome State Fault Refusal := transfer .tcx s

/-- `TCY` (R278). -/
def execTcy (s : State) : Host.Outcome State Fault Refusal := transfer .tcy s

/-- `TDA` (R279). -/
def execTda (s : State) : Host.Outcome State Fault Refusal := transfer .tda s

/-- `TDC` (R280). -/
def execTdc (s : State) : Host.Outcome State Fault Refusal := transfer .tdc s

/-- `TDX` (R281). -/
def execTdx (s : State) : Host.Outcome State Fault Refusal := transfer .tdx s

/-- `TDY` (R282). -/
def execTdy (s : State) : Host.Outcome State Fault Refusal := transfer .tdy s

/-- `TXA` (R283). -/
def execTxa (s : State) : Host.Outcome State Fault Refusal := transfer .txa s

/-- `TXC` (R284). -/
def execTxc (s : State) : Host.Outcome State Fault Refusal := transfer .txc s

/-- `TXD` (R285). -/
def execTxd (s : State) : Host.Outcome State Fault Refusal := transfer .txd s

/-- `TXY` (R286). -/
def execTxy (s : State) : Host.Outcome State Fault Refusal := transfer .txy s

/-- `TYA` (R287). -/
def execTya (s : State) : Host.Outcome State Fault Refusal := transfer .tya s

/-- `TYC` (R288). -/
def execTyc (s : State) : Host.Outcome State Fault Refusal := transfer .tyc s

/-- `TYD` (R289). -/
def execTyd (s : State) : Host.Outcome State Fault Refusal := transfer .tyd s

/-- `TYX` (R290). -/
def execTyx (s : State) : Host.Outcome State Fault Refusal := transfer .tyx s

/-- `TYXSP`: X into the low half of SP, then Y into the high half, by value (R291). -/
def execTyxsp (s : State) : Host.Outcome State Fault Refusal := finish (.ok s.spLowFromX.spHighFromY)

/-- `TSPYX`: the low half of SP into X, then the high half into Y, by value (R292). -/
def execTspyx (s : State) : Host.Outcome State Fault Refusal := finish (.ok s.xFromSpLow.yFromSpHigh)

end Sys2Proof.Machine
end

