-- ==== Sys2Proof/Machine/Dispatch.lean ====
section
/-! DEFINITION. One arm per instruction, each one direct call of its meaning. -/

namespace Sys2Proof.Machine

def exec (i : Instr) (s : State) : Host.Outcome State Fault Refusal :=
  match i with
  | .ldaImm v => Sys2Proof.Machine.execLdaImm v s
  | .ldaAbs w => Sys2Proof.Machine.execLdaAbs w s
  | .ldaAbsX w => Sys2Proof.Machine.execLdaAbsX w s
  | .ldaAbsY w => Sys2Proof.Machine.execLdaAbsY w s
  | .ldaInd w => Sys2Proof.Machine.execLdaInd w s
  | .ldaIndX w => Sys2Proof.Machine.execLdaIndX w s
  | .ldaIndY w => Sys2Proof.Machine.execLdaIndY w s
  | .staAbs w => Sys2Proof.Machine.execStaAbs w s
  | .staAbsX w => Sys2Proof.Machine.execStaAbsX w s
  | .staAbsY w => Sys2Proof.Machine.execStaAbsY w s
  | .ldcImm v => Sys2Proof.Machine.execLdcImm v s
  | .ldcAbs w => Sys2Proof.Machine.execLdcAbs w s
  | .ldcAbsX w => Sys2Proof.Machine.execLdcAbsX w s
  | .ldcAbsY w => Sys2Proof.Machine.execLdcAbsY w s
  | .ldcInd w => Sys2Proof.Machine.execLdcInd w s
  | .ldcIndX w => Sys2Proof.Machine.execLdcIndX w s
  | .ldcIndY w => Sys2Proof.Machine.execLdcIndY w s
  | .stcAbs w => Sys2Proof.Machine.execStcAbs w s
  | .stcAbsX w => Sys2Proof.Machine.execStcAbsX w s
  | .stcAbsY w => Sys2Proof.Machine.execStcAbsY w s
  | .lddImm v => Sys2Proof.Machine.execLddImm v s
  | .lddAbs w => Sys2Proof.Machine.execLddAbs w s
  | .lddAbsX w => Sys2Proof.Machine.execLddAbsX w s
  | .lddAbsY w => Sys2Proof.Machine.execLddAbsY w s
  | .lddInd w => Sys2Proof.Machine.execLddInd w s
  | .lddIndX w => Sys2Proof.Machine.execLddIndX w s
  | .lddIndY w => Sys2Proof.Machine.execLddIndY w s
  | .stdAbs w => Sys2Proof.Machine.execStdAbs w s
  | .stdAbsX w => Sys2Proof.Machine.execStdAbsX w s
  | .stdAbsY w => Sys2Proof.Machine.execStdAbsY w s
  | .ldxImm v => Sys2Proof.Machine.execLdxImm v s
  | .ldxAbs w => Sys2Proof.Machine.execLdxAbs w s
  | .ldxAbsX w => Sys2Proof.Machine.execLdxAbsX w s
  | .ldxAbsY w => Sys2Proof.Machine.execLdxAbsY w s
  | .ldxInd w => Sys2Proof.Machine.execLdxInd w s
  | .ldxIndX w => Sys2Proof.Machine.execLdxIndX w s
  | .ldxIndY w => Sys2Proof.Machine.execLdxIndY w s
  | .stxAbs w => Sys2Proof.Machine.execStxAbs w s
  | .stxAbsX w => Sys2Proof.Machine.execStxAbsX w s
  | .stxAbsY w => Sys2Proof.Machine.execStxAbsY w s
  | .ldyImm v => Sys2Proof.Machine.execLdyImm v s
  | .ldyAbs w => Sys2Proof.Machine.execLdyAbs w s
  | .ldyAbsX w => Sys2Proof.Machine.execLdyAbsX w s
  | .ldyAbsY w => Sys2Proof.Machine.execLdyAbsY w s
  | .ldyInd w => Sys2Proof.Machine.execLdyInd w s
  | .ldyIndX w => Sys2Proof.Machine.execLdyIndX w s
  | .ldyIndY w => Sys2Proof.Machine.execLdyIndY w s
  | .styAbs w => Sys2Proof.Machine.execStyAbs w s
  | .styAbsX w => Sys2Proof.Machine.execStyAbsX w s
  | .styAbsY w => Sys2Proof.Machine.execStyAbsY w s
  | .add v => Sys2Proof.Machine.execAdd v s
  | .addc v => Sys2Proof.Machine.execAddc v s
  | .addb v => Sys2Proof.Machine.execAddb v s
  | .addd => Sys2Proof.Machine.execAddd s
  | .adddc => Sys2Proof.Machine.execAdddc s
  | .adddb => Sys2Proof.Machine.execAdddb s
  | .tac => Sys2Proof.Machine.execTac s
  | .tad => Sys2Proof.Machine.execTad s
  | .tax => Sys2Proof.Machine.execTax s
  | .tay => Sys2Proof.Machine.execTay s
  | .tca => Sys2Proof.Machine.execTca s
  | .tcd => Sys2Proof.Machine.execTcd s
  | .tcx => Sys2Proof.Machine.execTcx s
  | .tcy => Sys2Proof.Machine.execTcy s
  | .tda => Sys2Proof.Machine.execTda s
  | .tdc => Sys2Proof.Machine.execTdc s
  | .tdx => Sys2Proof.Machine.execTdx s
  | .tdy => Sys2Proof.Machine.execTdy s
  | .txa => Sys2Proof.Machine.execTxa s
  | .txc => Sys2Proof.Machine.execTxc s
  | .txd => Sys2Proof.Machine.execTxd s
  | .txy => Sys2Proof.Machine.execTxy s
  | .tya => Sys2Proof.Machine.execTya s
  | .tyc => Sys2Proof.Machine.execTyc s
  | .tyd => Sys2Proof.Machine.execTyd s
  | .tyx => Sys2Proof.Machine.execTyx s
  | .tyxsp => Sys2Proof.Machine.execTyxsp s
  | .tspyx => Sys2Proof.Machine.execTspyx s
  | .jmp w => Sys2Proof.Machine.execJmp w s
  | .bpos w => Sys2Proof.Machine.execBpos w s
  | .bzer w => Sys2Proof.Machine.execBzer w s
  | .bneg w => Sys2Proof.Machine.execBneg w s
  | .bnpos w => Sys2Proof.Machine.execBnpos w s
  | .bnzer w => Sys2Proof.Machine.execBnzer w s
  | .bnneg w => Sys2Proof.Machine.execBnneg w s
  | .bovf w => Sys2Proof.Machine.execBovf w s
  | .bneu w => Sys2Proof.Machine.execBneu w s
  | .bunf w => Sys2Proof.Machine.execBunf w s
  | .bnovf w => Sys2Proof.Machine.execBnovf w s
  | .bnneu w => Sys2Proof.Machine.execBnneu w s
  | .bnunf w => Sys2Proof.Machine.execBnunf w s
  | .bcar w => Sys2Proof.Machine.execBcar w s
  | .bncb w => Sys2Proof.Machine.execBncb w s
  | .bbor w => Sys2Proof.Machine.execBbor w s
  | .bncar w => Sys2Proof.Machine.execBncar w s
  | .bcob w => Sys2Proof.Machine.execBcob w s
  | .bnbor w => Sys2Proof.Machine.execBnbor w s
  | .setou v => Sys2Proof.Machine.execSetou v s
  | .setcb v => Sys2Proof.Machine.execSetcb v s
  | .seti v => Sys2Proof.Machine.execSeti v s
  | .setbu v => Sys2Proof.Machine.execSetbu v s
  | .invalid _ => Sys2Proof.Machine.execInvalid s

end Sys2Proof.Machine
end

