-- ==== Sys2Proof/WellFormed.lean ====
section
/-!
DEFINITION. Which instructions an encoding exists for: every operand tryte has valid trits (30_encoding.md R85), and an
INVALID instruction keeps an opcode tryte that the dispatch table does not assign (R86, R87).
-/

namespace Sys2Proof

/-- Every operand tryte is a valid pattern (R85). -/
def Instr.operandsValid (i : Instr) : Bool := i.operands.all validTryte

/-- The tryte that an INVALID instruction keeps is a valid pattern whose number the table leaves to INVALID (R87). -/
def Instr.invalidOk (m : Opmap) (i : Instr) : Bool :=
  i.invalidTryte.all fun t => validTryte t && opOf m (valU t) = .invalid

/-- A well-formed instruction for dispatch table `m`. -/
def Instr.wellFormedFor (m : Opmap) (i : Instr) : Bool := i.operandsValid && i.invalidOk m

/-- A well-formed instruction under DEFAULT_OPMAP (log 5). -/
def Instr.wellFormed (i : Instr) : Bool := i.wellFormedFor defaultOpmap

end Sys2Proof
end

