-- ==== Sys2Proof/Decode.lean ====
section
/-!
DEFINITION. The decoder, total on any trytes and on any bytes, and the encoder (30_encoding.md R80 to R87, 20_memory.md
R56).
-/

namespace Sys2Proof

/-- Why the decoder rejects. -/
inductive DecodeError where
  /-- Tryte `k` of the instruction is missing. -/
  | missing (k : Nat)
  /-- Tryte `k` of the instruction has a field holding 3 (R81, R63). -/
  | codeThree (k : Nat)
deriving DecidableEq, Repr

/-- Take tryte `k` of an instruction from the front of a stream. -/
def nextTryte (k : Nat) : List Tryte → Except DecodeError (Tryte × List Tryte)
  | [] => .error (.missing k)
  | t :: rest => if validTryte t then .ok (t, rest) else .error (.codeThree k)

/-- Decode the instruction at the front of a tryte stream under dispatch table `m`; the rest of the stream comes back
with it. The opcode tryte alone says what the instruction is (R85). -/
def decode (m : Opmap) (ts : List Tryte) : Except DecodeError (Instr × List Tryte) := do
  let (t0, ts) ← nextTryte 0 ts
  let o := opOf m (valU t0)
  match o.format with
  | .imp => .ok (Instr.ofOp o t0 0 0, ts)
  | .imm | .immb => do
    let (v, ts) ← nextTryte 1 ts
    .ok (Instr.ofOp o t0 v 0, ts)
  | .abs3 => do
    let (lo, ts) ← nextTryte 1 ts
    let (hi, ts) ← nextTryte 2 ts
    .ok (Instr.ofOp o t0 lo hi, ts)

/-- The trytes of a byte string, two trytes to three bytes (R56). -/
def trytesOfBytes : List Byte → List Tryte
  | b0 :: b1 :: b2 :: rest =>
    (b1.extractLsb' 0 4 ++ b0 : BitVec 12) :: (b2 ++ b1.extractLsb' 4 4 : BitVec 12) :: trytesOfBytes rest
  | [b0, b1] => [(b1.extractLsb' 0 4 ++ b0 : BitVec 12)]
  | _ => []

/-- The bytes of a tryte string, two trytes to three bytes; a last tryte alone leaves four bits 0 (R56). -/
def bytesOfTrytes : List Tryte → List Byte
  | t0 :: t1 :: rest =>
    t0.extractLsb' 0 8 :: (t1.extractLsb' 0 4 ++ t0.extractLsb' 8 4 : BitVec 8) :: t1.extractLsb' 4 8 ::
      bytesOfTrytes rest
  | [t0] => [t0.extractLsb' 0 8, (t0.extractLsb' 8 4).setWidth 8]
  | [] => []

/-- Decode the instruction at the front of a byte string, as it lies in a buffer from an even tryte on. -/
def decodeBytes (m : Opmap) (bs : List Byte) : Except DecodeError Instr :=
  match decode m (trytesOfBytes bs) with
  | .ok (i, _) => .ok i
  | .error e => .error e

/-- The opcode tryte of an instruction under dispatch table `m`; none where the table does not assign it (R86). -/
def opcodeTryte (m : Opmap) (i : Instr) : Option Tryte :=
  match i.invalidTryte with
  | some t => some t
  | none => (opcodeOf m i.op).map fun n => encU n

/-- The trytes of an instruction under dispatch table `m` (R80, R82). -/
def encodeFor (m : Opmap) (i : Instr) : Option (List Tryte) :=
  (opcodeTryte m i).map fun t => t :: i.operands

/-- The trytes of an instruction under DEFAULT_OPMAP, which assigns every instruction (R90; log 5). -/
def encode (i : Instr) : List Tryte := (encodeFor defaultOpmap i).getD []

/-- The three trytes of an instruction whose bits are `w`, tryte `k` in bits 12k+11:12k; bits from `nbits` up are 0. -/
def tableTrytes (nbits w : Nat) : List Tryte :=
  let v := w % 2 ^ nbits
  [BitVec.ofNat 12 v, BitVec.ofNat 12 (v / 4096), BitVec.ofNat 12 (v / 16777216)]

/-- The instruction that the decoder reads from an instruction whose bits are `w`, laid out as bytes (log 11). -/
def decodeTableWord (nbits w : Nat) : Option Instr :=
  match decodeBytes defaultOpmap (bytesOfTrytes (tableTrytes nbits w)) with
  | .ok i => some i
  | .error _ => none

end Sys2Proof
end

