-- ==== Sys2Proof/Machine/Fetch.lean ====
section
/-!
DEFINITION. Fetching an instruction's trytes (42_fetch_execute.md R171, R176, R177, R180) and storing one where the next fetch
finds it.
-/

namespace Sys2Proof.Machine

/-- The opcode tryte at PC and the instruction there with its operand trytes, each read with the function that the form's
chain uses: ReadU for the opcode and for an address (R171, R176, R177), RdM for an immediate (R180), ReadB for the operand
of a flag-set instruction (R330). The reads happen in the order of the ticks, so the first bad tryte is the fault. -/
def State.fetchInstr (s : State) : Except Fault (Tryte × Instr) := do
  let t0 ← s.readU s.pc
  let o := opOf s.cfg.opmap (valU t0)
  match o.format with
  | .imp => .ok (t0, Instr.ofOp o t0 0 0)
  | .imm => do
    let v ← s.rdM (incW s.pc)
    .ok (t0, Instr.ofOp o t0 v 0)
  | .immb => do
    let v ← s.readB (incW s.pc)
    .ok (t0, Instr.ofOp o t0 v 0)
  | .abs3 => do
    let lo ← s.readU (incW s.pc)
    let hi ← s.readU (incW (incW s.pc))
    .ok (t0, Instr.ofOp o t0 lo hi)

/-- The state after the fetch tick that read opcode tryte `t0`: DB, PC, PHASE and UOP (R171). -/
def State.afterFetch (s : State) (t0 : Tryte) : State :=
  { s.takeTryte t0 with phase := .execute ⟨opOf s.cfg.opmap (valU t0), 1⟩ }

/-- Store a list of trytes at rising addresses from `addr` on. -/
def State.storeTrytes (s : State) (addr : UWord) : List Tryte → State
  | [] => s
  | t :: rest => (s.writeU addr t).storeTrytes (incW addr) rest

end Sys2Proof.Machine
end

