-- ==== Sys2Proof/Machine/Tick.lean ====
section
/-!
DEFINITION. The tick, the machine's only operation, and the chains of micro-operations that it runs (42_fetch_execute.md R170
to R190). The tick level is the normative one (00_scope.md R7).
-/

namespace Sys2Proof.Machine

/-- The statements that the steps of the chains are made of (R176 to R187 and the instruction files). -/
inductive Prim where
  /-- OPREAD (R176) -/
  | opread
  /-- LOREAD (R177) -/
  | loread
  /-- the test of a branch at the end of step 2 (R301) -/
  | test (c : Cond)
  /-- HISET (R178) -/
  | hiset
  /-- index add (R179) -/
  | index (r : Reg)
  /-- pointer low tryte (R183) -/
  | pointerLow
  /-- pointer high tryte (R183) -/
  | pointerHigh
  /-- load access at AL (R186) -/
  | load (r : Reg)
  /-- store access at AL (R187) -/
  | store (r : Reg)
  /-- PC from AL (R300) -/
  | jump
  /-- load access of the immediate form (R180, R186) -/
  | loadImm (r : Reg)
  /-- the add of an immediate operand (R263) -/
  | addImm (k : AddKind)
  /-- the flag-set step (R330) -/
  | flagImm (f : FlagSel)
  /-- the add of D (R266) -/
  | addD (k : AddKind)
  /-- register transfer (R270) -/
  | copy (t : Xfer)
  /-- TYXSP steps (R291) -/
  | spLow
  | spHigh
  /-- TSPYX steps (R292) -/
  | xFromSp
  | yFromSp
deriving DecidableEq, Repr

/-- The kind of memory access of a statement: operand read, pointer read, data read, data write (R188). -/
inductive Access where
  | operand
  | pointer
  | dataRead
  | dataWrite
deriving DecidableEq, Repr

/-- The memory access of a statement, if it makes one (R188). -/
def Prim.access : Prim → Option Access
  | .opread | .loread | .loadImm _ | .addImm _ | .flagImm _ => some .operand
  | .pointerLow | .pointerHigh => some .pointer
  | .load _ => some .dataRead
  | .store _ => some .dataWrite
  | .test _ | .hiset | .index _ | .jump | .addD _ | .copy _ | .spLow | .spHigh | .xFromSp | .yFromSp => none

/-- One statement. -/
def State.runPrim (s : State) : Prim → Except Fault State
  | .opread => do let t ← s.readU s.pc; .ok (s.takeTryte t)
  | .loread => do let t ← s.readU s.pc; .ok (s.takeHigh t)
  | .test _ => .ok s
  | .hiset => .ok s.hiset
  | .index r => .ok (s.indexAdd r)
  | .pointerLow => s.pointerLow
  | .pointerHigh => s.pointerHigh
  | .load r => s.loadAccess r
  | .store r => .ok (s.storeAccess r)
  | .jump => .ok s.jumpToAl
  | .loadImm r => do let t ← s.rdM s.pc; .ok ((s.takeTryte t).loadDatum r t)
  | .addImm k => do let t ← s.rdM s.pc; .ok ((s.takeTryte t).addOperand .imm k t)
  | .flagImm f => do let t ← s.readB s.pc; .ok ((s.takeTryte t).setFlag f t)
  | .addD k => .ok (s.addRegD k)
  | .copy t => .ok (s.copyReg t)
  | .spLow => .ok s.spLowFromX
  | .spHigh => .ok s.spHighFromY
  | .xFromSp => .ok s.xFromSpLow
  | .yFromSp => .ok s.yFromSpHigh

/-- The statements of one step in the order written (R173). -/
def State.runPrims (s : State) : List Prim → Except Fault State
  | [] => .ok s
  | p :: rest => do
    let s' ← s.runPrim p
    s'.runPrims rest

/-- The chain of an addressing mode with its access statement (R181 to R184). -/
def addressChain (m : AddrMode) (access : Prim) : List (List Prim) :=
  match m with
  | .abs => [[.opread], [.loread], [.hiset, access]]
  | .absX => [[.opread], [.loread], [.hiset, .index .x], [access]]
  | .absY => [[.opread], [.loread], [.hiset, .index .y], [access]]
  | .ind => [[.opread], [.loread], [.hiset, .pointerLow], [.pointerHigh], [access]]
  | .indX => [[.opread], [.loread], [.hiset, .pointerLow], [.pointerHigh], [.index .x], [access]]
  | .indY => [[.opread], [.loread], [.hiset, .pointerLow], [.pointerHigh], [.index .y], [access]]

/-- The chain of an instruction, step by step (R180 to R185, R270, R291, R292, R300, R301, R330, R336). -/
def opChain : Op → List (List Prim)
  | .ld r .imm => [[.loadImm r]]
  | .ld r (.mem m) => addressChain m (.load r)
  | .st r m => addressChain (stAddr m) (.store r)
  | .add .imm k => [[.addImm k]]
  | .add .regD k => [[.addD k]]
  | .xfer t => [[.copy t]]
  | .tyxsp => [[.spLow], [.spHigh]]
  | .tspyx => [[.xFromSp], [.yFromSp]]
  | .jmp => [[.opread], [.loread], [.hiset, .jump]]
  | .branch c => [[.opread], [.loread, .test c], [.hiset, .jump]]
  | .setFlag f => [[.flagImm f]]
  | .invalid => [[]]

/-- A branch test that fails ends the instruction at its step (R301). -/
def Prim.stops (p : Prim) (f : Flags) : Bool :=
  match p with
  | .test c => !condHolds c f
  | _ => false

/-- The statements of the step that a UOP names; none where its chain has no such step (R172). -/
def Uop.prims (u : Uop) : Option (List Prim) :=
  match u.step with
  | 0 => none
  | k + 1 => (opChain u.op)[k]?

/-- PHASE and UOP after a step: Fetch after the last one or after a failed branch test, else the next step (R172). -/
def Uop.nextPhase (u : Uop) (ps : List Prim) (f : Flags) : Phase :=
  if (opChain u.op).length ≤ u.step || ps.any (fun p => p.stops f) then .fetch else .execute ⟨u.op, u.step + 1⟩

/-- The fetch tick (R171). -/
def State.fetchTick (s : State) : Except Fault State := do
  let t0 ← s.readU s.pc
  .ok (s.afterFetch t0)

/-- The execute tick with UOP `u` whose statements are `ps` (R172). -/
def State.executeTick (s : State) (u : Uop) (ps : List Prim) : Except Fault State := do
  let s' ← s.runPrims ps
  .ok { s' with phase := u.nextPhase ps s'.f }

/-- The outcome of a tick. -/
def tickOutcome : Except Fault State → Host.Outcome State Fault Refusal
  | .ok s => .next s
  | .error e => .fault e

/-- One tick (R170). -/
def tick (s : State) : Host.Outcome State Fault Refusal :=
  match s.phase with
  | .fetch => tickOutcome s.fetchTick
  | .execute u =>
    match u.prims with
    | some ps => tickOutcome (s.executeTick u ps)
    | none => .refused .noSuchMicroOperation

/-- `n` ticks: a run is the host's choice of a number of ticks (R190). -/
def runTicks : Nat → State → Host.Outcome State Fault Refusal
  | 0, s => .next s
  | n + 1, s =>
    match tick s with
    | .next s' => runTicks n s'
    | .fault e => .fault e
    | .refused r => .refused r

/-- Tick until the first instruction boundary, at most `n` times; at least one tick if `n` is not 0 (R174). -/
def tickToBoundary : Nat → State → Host.Outcome State Fault Refusal
  | 0, s => .next s
  | n + 1, s =>
    match tick s with
    | .next s' => if s'.phase = .fetch then .next s' else tickToBoundary n s'
    | .fault e => .fault e
    | .refused r => .refused r

/-- No instruction takes more ticks than this, the fetch tick included (R188). -/
def maxTicks : Nat := 7

/-- Ticks of an instruction, the fetch tick included, begun with flags `f` (R188): a branch not taken ends a tick
early. -/
def opTicks (o : Op) (f : Flags) : Nat :=
  match o with
  | .branch c => if condHolds c f then 4 else 3
  | _ => 1 + (opChain o).length

end Sys2Proof.Machine
end

