-- ==== Sys2Proof/Machine/Step.lean ====
section
/-!
DEFINITION. One step of the machine: a whole instruction (00_scope.md R7, 42_fetch_execute.md R174; log 1).

At an instruction boundary the step fetches the instruction at PC with its operand trytes and runs its meaning. In mid
instruction, where the host stopped between ticks (R190), it runs the remaining ticks. The normative tick is `tick`.
-/

namespace Sys2Proof.Machine

/-- A step from an instruction boundary. -/
def stepInstr (s : State) : Host.Outcome State Fault Refusal :=
  match s.fetchInstr with
  | .ok (t0, i) => exec i (s.afterFetch t0)
  | .error e => .fault e

/-- One step: one instruction, or the rest of one. -/
def step (s : State) : Host.Outcome State Fault Refusal :=
  match s.phase with
  | .fetch => stepInstr s
  | .execute _ => tickToBoundary maxTicks s

/-- `s` at an instruction boundary with an instruction's trytes stored at PC, PC + 1 and PC + 2 (log 11). -/
def State.withFetchWord (s : State) (nbits w : Nat) : State :=
  ({ s with phase := .fetch } : State).storeTrytes s.pc (tableTrytes nbits w)

end Sys2Proof.Machine
end

