-- ==== Sys2Proof/Machine/Logic.lean ====
section
/-!
DEFINITION. The tritwise logic of the ALU by the truth tables of the configuration (41_alu_shift_logic.md R150 to R157). No
instruction reaches it (R125, R157).
-/

namespace Sys2Proof.Machine

/-- One trit of a two-operand operation, as a packed code (R150); a free value where a code is 3 (log 8). -/
def lookup2 (t : Table2) (a b : Nat) : Nat :=
  match t.entry a b with
  | some e => e.val
  | none => (Config.codeThreeBinary t (BitVec.ofNat 2 a) (BitVec.ofNat 2 b)).toNat

/-- One trit of a one-operand operation (R150); a free value at code 3 (log 8). -/
def lookup1 (t : Table1) (a : Nat) : Nat :=
  match t.entry a with
  | some e => e.val
  | none => (Config.codeThreeUnary t (BitVec.ofNat 2 a)).toNat

/-- A two-operand operation on the low `k` fields, trit by trit (R150). -/
def tritwise2 (t : Table2) : Nat → Nat → Nat → Nat
  | 0, _, _ => 0
  | k + 1, p, q => lookup2 t (p % 4) (q % 4) + 4 * tritwise2 t k (p / 4) (q / 4)

/-- A one-operand operation on the low `k` fields, trit by trit (R150). -/
def tritwise1 (t : Table1) : Nat → Nat → Nat
  | 0, _ => 0
  | k + 1, p => lookup1 t (p % 4) + 4 * tritwise1 t k (p / 4)

/-- A two-operand operation on trytes. -/
def tritwiseT (t : Table2) (a b : Tryte) : Tryte := BitVec.ofNat 12 (tritwise2 t 6 a.toNat b.toNat)

/-- A two-operand operation on words. -/
def tritwiseW (t : Table2) (a b : UWord) : UWord := BitVec.ofNat 24 (tritwise2 t 12 a.toNat b.toNat)

/-- Balanced AND (R150). -/
def andB (c : Config) (a b : Tryte) : Tryte := tritwiseT c.andB a b

/-- Balanced OR (R150). -/
def orB (c : Config) (a b : Tryte) : Tryte := tritwiseT c.orB a b

/-- Balanced XOR (R150). -/
def xorB (c : Config) (a b : Tryte) : Tryte := tritwiseT c.xorB a b

/-- Balanced NOT (R150). -/
def notB (c : Config) (a : Tryte) : Tryte := BitVec.ofNat 12 (tritwise1 c.notB 6 a.toNat)

/-- Unbalanced AND on UTrytes (R150). -/
def andU (c : Config) (a b : UTryte) : UTryte := tritwiseT c.andU a b

/-- Unbalanced OR on UTrytes (R150). -/
def orU (c : Config) (a b : UTryte) : UTryte := tritwiseT c.orU a b

/-- Unbalanced XOR on UTrytes (R150). -/
def xorU (c : Config) (a b : UTryte) : UTryte := tritwiseT c.xorU a b

/-- Unbalanced NOT on UTrytes (R150). -/
def notU (c : Config) (a : UTryte) : UTryte := BitVec.ofNat 12 (tritwise1 c.notU 6 a.toNat)

/-- AND on UWords, as a value (R150, R157). -/
def andW (c : Config) (a b : UWord) : UWord := tritwiseW c.andU a b

/-- OR on UWords (R150). -/
def orW (c : Config) (a b : UWord) : UWord := tritwiseW c.orU a b

/-- XOR on UWords (R150). -/
def xorW (c : Config) (a b : UWord) : UWord := tritwiseW c.xorU a b

/-- NOT on UWords (R150). -/
def notW (c : Config) (a : UWord) : UWord := BitVec.ofNat 24 (tritwise1 c.notU 12 a.toNat)

/-- In-place AND on a UWord: the new value of the destination (R157). -/
def andWInPlace (c : Config) (dst src : UWord) : UWord :=
  if c.uwordAndInplaceNoop then dst else andW c dst src

end Sys2Proof.Machine
end

