-- ==== Sys2Proof/Machine/Shift.lean ====
section
/-!
DEFINITION. The shifts of the ALU (41_alu_shift_logic.md R140 to R146). No instruction reaches them (R125).
-/

namespace Sys2Proof.Machine

/-- `fillB(k)`: `k` fields of code 1 in the low bits (R140). -/
def fillB (k : Nat) : BitVec 12 := BitVec.ofNat 12 ((4 ^ k - 1) / 3)

/-- Shift left, Tryte; all fill from count 6 on (R140, R146). -/
def shlB (t : Tryte) (k : Nat) : Tryte := if k < 6 then (t <<< (2 * k)) ||| fillB k else 0x555#12

/-- Shift left, UTryte (R141, R146). -/
def shlU (u : UTryte) (k : Nat) : UTryte := if k < 6 then u <<< (2 * k) else 0x000#12

/-- Shift left, UWord (R142, R146). -/
def shlW (w : UWord) (k : Nat) : UWord := if k < 12 then w <<< (2 * k) else 0x000000#24

/-- Shift right, Tryte: the vacated high trits are the balanced 0 (R143, R146). -/
def shrB (t : Tryte) (k : Nat) : Tryte :=
  if k < 6 then (t >>> (2 * k)) ||| (fillB k <<< (12 - 2 * k)) else 0x555#12

/-- Shift right, UTryte (R144, R146). -/
def shrU (u : UTryte) (k : Nat) : UTryte := if k < 6 then u >>> (2 * k) else 0x000#12

/-- Shift right, UWord (R145, R146). -/
def shrW (w : UWord) (k : Nat) : UWord := if k < 12 then w >>> (2 * k) else 0x000000#24

/-- A shift by a count of any sign: a negative count has no meaning and is refused (R146, R342). -/
def checkedShift {α : Type} (shift : α → Nat → α) (v : α) (k : Int) : Except Refusal α :=
  if k < 0 then .error .negativeShiftCount else .ok (shift v k.toNat)

end Sys2Proof.Machine
end

