-- ==== Sys2Proof/Machine/HostPort.lean ====
section
/-!
DEFINITION. What the host does to the machine (70_reset_and_hazards.md R360, R375, R376; 20_memory.md R71): construct it, and
read and write bytes of the four buffers between ticks.
-/

namespace Sys2Proof.Machine

/-- Every listed byte of a buffer lies below `size`. -/
def Buffer.within (size : Nat) (b : Buffer) : Bool := b.all fun e => e.1 < size

/-- Every buffer lists bytes of its own size only (R52). -/
def Memory.fits (m : Memory) (cfg : Config) : Bool :=
  [BufferName.ram, .fb, .cit, .pal].all fun b => Buffer.within (bufferBytes (regionSize cfg b)) (m.get b)

/-- Construction: a configuration and an image give the reset state, or no machine (R355, R360, R367). The image may hold
a code 3; the fault then arises at the first read of it (R367). -/
def construct (cfg : Config) (image : Memory) : Host.Outcome State Fault Refusal :=
  if cfg.admissible && image.wf && image.fits cfg then .next (State.resetWith cfg image)
  else .refused .badConfiguration

/-- The host reads a byte of a buffer (R375). A byte at or past the end of the buffer, of which the spec says nothing
(R52), reads as an unlisted byte, 0x00: DESIGN CHOICE, unsafe (log 16). -/
def State.hostRead (s : State) (b : BufferName) (n : Nat) : Byte := readByte (s.mem.get b) n

/-- The host writes a byte of a buffer, between ticks (R71, R375). -/
def State.hostWrite (s : State) (b : BufferName) (n : Nat) (v : Byte) : Host.Outcome State Fault Refusal :=
  if n < bufferBytes (regionSize s.cfg b) then
    .next { s with mem := s.mem.set b (writeByte (s.mem.get b) n v) }
  else .refused .outsideBuffer

end Sys2Proof.Machine
end

