-- ==== Sys2Proof/Safety.lean ====
section
/-!
DEFINITION. What a good state is, and what a safe run is, in the terms that the statements use.

R38: in every reachable state every trit field of every register, latch and memory cell holds 0, 1 or 2; R36: F.R0 is 0;
R29, R172: UOP names a step of its instruction's chain. A run is safe if it meets no fault (R341).
-/

namespace Sys2Proof.Machine

/-- Every register and latch is a valid pattern (R38). -/
def State.regsValid (s : State) : Bool :=
  validTryte s.a && validTryte s.c && validTryte s.d && validTryte s.x && validTryte s.y &&
  validWord s.pc && validWord s.sp && validTryte s.db && validWord s.al

/-- Every mapped cell is a valid pattern (R38). -/
def State.cellsValid (s : State) : Prop := ∀ v t, s.cell v = some t → validTryte t = true

/-- PHASE is Fetch, or UOP is a step of its instruction's chain (R172). -/
def State.phaseOk (s : State) : Bool :=
  match s.phase with
  | .fetch => true
  | .execute u => u.prims.isSome

/-- The invariant of the reachable states: valid registers and latches, F.R0 = 0, a legal phase, and memory in canonical
form inside its buffers (R36, R38, R52, R172). -/
def State.shapeOk (s : State) : Bool :=
  s.regsValid && s.f.r0 = .zero && s.phaseOk && s.mem.wf && s.mem.fits s.cfg

/-- A good state: the shape is right and every mapped cell is valid (R38). -/
structure State.Good (s : State) : Prop where
  shape : s.shapeOk = true
  cells : s.cellsValid

/-- A run of `n` ticks is safe: it ends in a state (R340, R341). -/
def safeTicks (n : Nat) (s : State) : Prop := ∃ t, runTicks n s = .next t

end Sys2Proof.Machine
end

