-- ==== Sys2Proof/Certificates/Slice0/Obligations.lean ====
section
/-!
DEFINITION. The statements for the provers. Each docstring names the rules of spec/ that the statement formalises. A statement
about an instruction is about `exec`, on the state right after the fetch tick (log 10); `StepRunsTheDecodedInstruction`
carries it to `step`, and `StepIsTheRunOfItsTicks` to the normative tick (log 1).
-/

section
open Sys2Proof Sys2Proof.Machine

/-! ## The numeric layer (40_alu_numeric.md) -/

/-- R105: the Tryte that an integer encodes to: its value, its codes and its validity (the modulus for an
out-of-range integer is the spec's decision D26). -/
def Obligations.BalancedEncoding : Prop :=
  ∀ n : Int,
    -364 ≤ wrapB n ∧ wrapB n ≤ 364 ∧ (n - wrapB n) % 729 = 0 ∧ valB (encB n) = wrapB n ∧
    validTryte (encB n) = true ∧
    ∀ i, i < 6 → codeAt (encB n).toNat i = (wrapB n + 364).toNat / 3 ^ i % 3

/-- R106: the UTryte and the UWord that an integer encodes to (the modulus is the spec's decision D26). -/
def Obligations.UnbalancedEncoding : Prop :=
  ∀ n : Int,
    (valU (encU n) : Int) = n % 729 ∧ (valU12 (encU12 n) : Int) = n % 531441 ∧
    validTryte (encU n) = true ∧ validWord (encU12 n) = true ∧
    (∀ i, i < 6 → codeAt (encU n).toNat i = (n % 729).toNat / 3 ^ i % 3) ∧
    (∀ i, i < 12 → codeAt (encU12 n).toNat i = (n % 531441).toNat / 3 ^ i % 3)

/-- R107, R108: the decoded values as digit sums on any pattern, and decoding an encoded value. -/
def Obligations.DecodedValuesAreDigitSums : Prop :=
  (∀ b : Tryte, valB b = ∑ i ∈ Finset.range 6, ((codeAt b.toNat i : Int) - 1) * 3 ^ i) ∧
  (∀ b : UTryte, valU b = ∑ i ∈ Finset.range 6, codeAt b.toNat i * 3 ^ i) ∧
  (∀ w : UWord, valU12 w = ∑ i ∈ Finset.range 12, codeAt w.toNat i * 3 ^ i) ∧
  (∀ v : Int, -364 ≤ v → v ≤ 364 → valB (encB v) = v) ∧
  (∀ v : Nat, v ≤ 728 → valU (encU v) = v) ∧
  (∀ v : Nat, v ≤ 531440 → valU12 (encU12 v) = v)

/-- R101 to R103: the ranges of the types, and a valid pattern is the encoding of its value. -/
def Obligations.ValidPatternsAndValuesCorrespond : Prop :=
  (∀ t : Tryte, validTryte t = true → -364 ≤ valB t ∧ valB t ≤ 364 ∧ encB (valB t) = t) ∧
  (∀ u : UTryte, validTryte u = true → valU u ≤ 728 ∧ encU (valU u) = u) ∧
  (∀ w : UWord, validWord w = true → valU12 w ≤ 531440 ∧ encU12 (valU12 w) = w) ∧
  (∀ w : UWord, valU12 w = valU (loTryte w) + 729 * valU (hiTryte w))

/-- R110, R111, R116: the conversions between Tryte and UTryte by value and by pattern, their inverse laws, and the offset
between the two readings of one pattern (the spec's decision D2). -/
def Obligations.TryteConversions : Prop :=
  (∀ t : Tryte, (valU (toUTryte t) : Int) = valB t % 729 ∧ (valU (toUTryte t) : Int) = ((valU t : Int) - 364) % 729) ∧
  (∀ u : UTryte, valB (toTryte u) = wrapB (valU u) ∧ toTryte u = encU (valU u + 364)) ∧
  (∀ t : Tryte, (valU t : Int) = valB t + 364) ∧
  (∀ t : Tryte, validTryte t = true → toTryte (toUTryte t) = t ∧
    (0 ≤ valB t → (valU (toUTryte t) : Int) = valB t) ∧ (valB t < 0 → (valU (toUTryte t) : Int) = valB t + 729)) ∧
  (∀ u : UTryte, validTryte u = true → toUTryte (toTryte u) = u ∧
    (valU u ≤ 364 → valB (toTryte u) = valU u) ∧ (365 ≤ valU u → valB (toTryte u) = (valU u : Int) - 729))

/-- R112 to R115: the conversions to and from words. Adding the sign-extended Tryte to an address adds its signed value
(the spec's decision D2). -/
def Obligations.WordConversions : Prop :=
  (∀ u : UTryte, loTryte (toUWordZ u) = u ∧ hiTryte (toUWordZ u) = 0x000#12) ∧
  (∀ w : UWord, validWord w = true → valU (loTryte w) = valU12 w % 729 ∧ valU (hiTryte w) = valU12 w / 729) ∧
  (∀ t : Tryte, validTryte t = true → loTryte (toUWordS t) = toUTryte t ∧
    hiTryte (toUWordS t) = (if valB t < 0 then 0xAAA#12 else 0x000#12)) ∧
  (∀ (w : UWord) (t : Tryte), (valU12 (addW w (toUWordS t)) : Int) = (valU12 w + valB t) % 531441) ∧
  (∀ w : UWord, validWord w = true → valB (uwordToTryte w) = wrapB (valU12 w % 729 : Nat))

/-- R117, R118: increment and decrement by value, as ripples over the codes, with their wraps and as mutual inverses. -/
def Obligations.IncrementAndDecrementRipple : Prop :=
  (∀ t : Tryte, valB (incB t) = wrapB (valB t + 1) ∧ valB (decB t) = wrapB (valB t - 1)) ∧
  (∀ u : UTryte, (valU (incU u) : Int) = (valU u + 1) % 729 ∧ (valU (decU u) : Int) = (valU u - 1) % 729) ∧
  (∀ w : UWord, (valU12 (incW w) : Int) = (valU12 w + 1) % 531441 ∧ (valU12 (decW w) : Int) = (valU12 w - 1) % 531441) ∧
  (∀ t : Tryte, validTryte t = true →
    incB t = BitVec.ofNat 12 (rippleInc 6 t.toNat) ∧ incU t = BitVec.ofNat 12 (rippleInc 6 t.toNat) ∧
    decB t = BitVec.ofNat 12 (rippleDec 6 t.toNat) ∧ decU t = BitVec.ofNat 12 (rippleDec 6 t.toNat) ∧
    decB (incB t) = t ∧ incB (decB t) = t ∧ decU (incU t) = t ∧ incU (decU t) = t) ∧
  (∀ w : UWord, validWord w = true →
    incW w = BitVec.ofNat 24 (rippleInc 12 w.toNat) ∧ decW w = BitVec.ofNat 24 (rippleDec 12 w.toNat) ∧
    decW (incW w) = w ∧ incW (decW w) = w) ∧
  incB 0xAAA#12 = 0x000#12 ∧ incU 0xAAA#12 = 0x000#12 ∧ incW 0xAAAAAA#24 = 0x000000#24 ∧
  decB 0x000#12 = 0xAAA#12 ∧ decU 0x000#12 = 0xAAA#12 ∧ decW 0x000000#24 = 0xAAAAAA#24

/-- R119, R120: addition and subtraction of like types wrap in the range of the type (subtraction is the
spec's decision D28). -/
def Obligations.AdditionAndSubtractionWrap : Prop :=
  (∀ a b : Tryte, valB (addB a b) = wrapB (valB a + valB b) ∧ valB (subB a b) = wrapB (valB a - valB b)) ∧
  (∀ a b : UTryte, (valU (addU a b) : Int) = (valU a + valU b) % 729 ∧ (valU (subU a b) : Int) = (valU a - valU b) % 729) ∧
  (∀ a b : UWord, (valU12 (addW a b) : Int) = (valU12 a + valU12 b) % 531441 ∧
    (valU12 (subW a b) : Int) = (valU12 a - valU12 b) % 531441) ∧
  (∀ a b : Tryte, validTryte a = true → validTryte b = true →
    subB (addB a b) b = a ∧ subU (addU a b) b = a ∧ validTryte (addB a b) = true ∧ validTryte (addU a b) = true)

/-- R121, R122: like types compare by value, equal valid values are equal patterns, and the sign digits
(comparison is the spec's decision D28). -/
def Obligations.ComparisonAndSign : Prop :=
  (∀ a b : Tryte, (compareB a b = .lt ↔ valB a < valB b) ∧ (compareB a b = .gt ↔ valB b < valB a)) ∧
  (∀ a b : UTryte, (compareU a b = .lt ↔ valU a < valU b) ∧ (compareU a b = .gt ↔ valU b < valU a)) ∧
  (∀ a b : UWord, (compareW a b = .lt ↔ valU12 a < valU12 b) ∧ (compareW a b = .gt ↔ valU12 b < valU12 a)) ∧
  (∀ a b : Tryte, validTryte a = true → validTryte b = true →
    (compareB a b = .eq ↔ a = b) ∧ (compareU a b = .eq ↔ a = b)) ∧
  (∀ a b : UWord, validWord a = true → validWord b = true → (compareW a b = .eq ↔ a = b)) ∧
  (∀ t : Tryte, (signB t = .pos ↔ 0 < valB t) ∧ (signB t = .zero ↔ valB t = 0) ∧ (signB t = .neg ↔ valB t < 0)) ∧
  (∀ u : UTryte, (signU u = .zero ↔ valU u = 0) ∧ (signU u = .pos ↔ valU u ≠ 0))

/-! ## Shifts and logic (41_alu_shift_logic.md) -/

/-- R140 to R142: a left shift by less than the width multiplies by a power of 3, trit by trit. -/
def Obligations.ShiftLeftMultiplies : Prop :=
  (∀ (t : Tryte) (k : Nat), k < 6 → validTryte t = true → valB (shlB t k) = wrapB (valB t * 3 ^ k)) ∧
  (∀ (t : Tryte) (k i : Nat), k < 6 → i < 6 →
    codeAt (shlB t k).toNat i = if i < k then 1 else codeAt t.toNat (i - k)) ∧
  (∀ (u : UTryte) (k : Nat), k < 6 → validTryte u = true → valU (shlU u k) = valU u * 3 ^ k % 729) ∧
  (∀ (u : UTryte) (k i : Nat), k < 6 → i < 6 →
    codeAt (shlU u k).toNat i = if i < k then 0 else codeAt u.toNat (i - k)) ∧
  (∀ (w : UWord) (k : Nat), k < 12 → validWord w = true → valU12 (shlW w k) = valU12 w * 3 ^ k % 531441) ∧
  (∀ (w : UWord) (k i : Nat), k < 12 → i < 12 →
    codeAt (shlW w k).toNat i = if i < k then 0 else codeAt w.toNat (i - k))

/-- R143 to R145: a right shift by less than the width divides by a power of 3, to the nearest integer for a Tryte and
downwards for the unbalanced types (the fill is the spec's decision D4). -/
def Obligations.ShiftRightDivides : Prop :=
  (∀ (t : Tryte) (k : Nat), k < 6 → validTryte t = true → 2 * |valB t - 3 ^ k * valB (shrB t k)| < 3 ^ k) ∧
  (∀ (t : Tryte) (k i : Nat), k < 6 → i < 6 →
    codeAt (shrB t k).toNat i = if i < 6 - k then codeAt t.toNat (i + k) else 1) ∧
  (∀ (u : UTryte) (k : Nat), k < 6 → validTryte u = true → valU (shrU u k) = valU u / 3 ^ k) ∧
  (∀ (w : UWord) (k : Nat), k < 12 → validWord w = true → valU12 (shrW w k) = valU12 w / 3 ^ k)

/-- R146: the shift counts 0 and from the width on, and the refusal of a negative count (the spec's decision D4). -/
def Obligations.ShiftCountLimits : Prop :=
  (∀ t : Tryte, shlB t 0 = t ∧ shrB t 0 = t ∧ shlU t 0 = t ∧ shrU t 0 = t) ∧
  (∀ w : UWord, shlW w 0 = w ∧ shrW w 0 = w) ∧
  (∀ (t : Tryte) (k : Nat), 6 ≤ k →
    shlB t k = 0x555#12 ∧ shrB t k = 0x555#12 ∧ shlU t k = 0x000#12 ∧ shrU t k = 0x000#12) ∧
  (∀ (w : UWord) (k : Nat), 12 ≤ k → shlW w k = 0x000000#24 ∧ shrW w k = 0x000000#24) ∧
  (∀ (t : Tryte) (k : Int), k < 0 → ∀ f ∈ [shlB, shrB, shlU, shrU], checkedShift f t k = .error .negativeShiftCount) ∧
  (∀ (w : UWord) (k : Int), k < 0 → ∀ f ∈ [shlW, shrW], checkedShift f w k = .error .negativeShiftCount) ∧
  (∀ (t : Tryte) (k : Nat), ∀ f ∈ [shlB, shrB, shlU, shrU], checkedShift f t k = .ok (f t k)) ∧
  (∀ (w : UWord) (k : Nat), ∀ f ∈ [shlW, shrW], checkedShift f w k = .ok (f w k))

/-- R150, R157: on valid patterns each trit of a logic result is the table entry at the operands' codes, for any tables
of the configuration; the in-place AND on words (a parameter by the spec's decision D15). -/
def Obligations.LogicWorksTritByTrit : Prop :=
  ∀ c : Config,
    (∀ a b : Tryte, validTryte a = true → validTryte b = true → ∀ i, i < 6 →
      (∀ e ∈ [(andB c, c.andB), (orB c, c.orB), (xorB c, c.xorB), (andU c, c.andU), (orU c, c.orU), (xorU c, c.xorU)],
        (e.2.entry (codeAt a.toNat i) (codeAt b.toNat i)).map Fin.val = some (codeAt (e.1 a b).toNat i)) ∧
      (c.notB.entry (codeAt a.toNat i)).map Fin.val = some (codeAt (notB c a).toNat i) ∧
      (c.notU.entry (codeAt a.toNat i)).map Fin.val = some (codeAt (notU c a).toNat i)) ∧
    (∀ a b : UWord, validWord a = true → validWord b = true → ∀ i, i < 12 →
      (∀ e ∈ [(andW c, c.andU), (orW c, c.orU), (xorW c, c.xorU)],
        (e.2.entry (codeAt a.toNat i) (codeAt b.toNat i)).map Fin.val = some (codeAt (e.1 a b).toNat i)) ∧
      (c.notU.entry (codeAt a.toNat i)).map Fin.val = some (codeAt (notW c a).toNat i)) ∧
    (∀ a b : UWord, (c.uwordAndInplaceNoop = true → andWInPlace c a b = a) ∧
      (c.uwordAndInplaceNoop = false → andWInPlace c a b = andW c a b))

/-- R158, R37: in an admissible configuration the masked logic on the packed F computes the direct update of the one trit:
OR with a mask that is + there and a right identity elsewhere sets it, AND with - there clears it, and under the default
tables XOR with + there negates it (decisions D3 and D6 of the spec). -/
def Obligations.FlagMasksComputeDirectUpdates : Prop :=
  ∀ (c : Config) (f : Flags) (e : Trit), c.tablesOk = true →
    ((∀ d : Trit, (c.orB.entry d.code e.code).map Fin.val = some d.code) →
      orB c f.pack (tryteOfTrits .pos e e e e e) = Flags.pack { f with s := .pos } ∧
      orB c f.pack (tryteOfTrits e .pos e e e e) = Flags.pack { f with ou := .pos } ∧
      orB c f.pack (tryteOfTrits e e .pos e e e) = Flags.pack { f with cb := .pos } ∧
      orB c f.pack (tryteOfTrits e e e .pos e e) = Flags.pack { f with i := .set } ∧
      orB c f.pack (tryteOfTrits e e e e .pos e) = Flags.pack { f with bu := .balanced }) ∧
    ((∀ d : Trit, (c.andB.entry d.code e.code).map Fin.val = some d.code) →
      andB c f.pack (tryteOfTrits .neg e e e e e) = Flags.pack { f with s := .neg } ∧
      andB c f.pack (tryteOfTrits e .neg e e e e) = Flags.pack { f with ou := .neg } ∧
      andB c f.pack (tryteOfTrits e e .neg e e e) = Flags.pack { f with cb := .neg } ∧
      andB c f.pack (tryteOfTrits e e e .neg e e) = Flags.pack { f with i := .clear } ∧
      andB c f.pack (tryteOfTrits e e e e .neg e) = Flags.pack { f with bu := .unbalanced }) ∧
    xorB testConfig f.pack (tryteOfTrits .neg .pos .neg .neg .neg .neg) =
      Flags.pack { f with ou := toggleApply testConfig.flagToggle f.ou } ∧
    xorB testConfig f.pack (tryteOfTrits .neg .neg .pos .neg .neg .neg) =
      Flags.pack { f with cb := toggleApply testConfig.flagToggle f.cb }

/-- R159, R155: the laws of the default tables, for valid patterns of each type (the tables are the spec's decision D3). -/
def Obligations.DefaultLogicLaws : Prop :=
  (∀ a b d : Tryte, validTryte a = true → validTryte b = true → validTryte d = true →
    (∀ f ∈ [andB testConfig, orB testConfig, xorB testConfig, andU testConfig, orU testConfig, xorU testConfig],
      f a b = f b a) ∧
    (∀ f ∈ [andB testConfig, orB testConfig, andU testConfig, orU testConfig], f (f a b) d = f a (f b d) ∧ f a a = a) ∧
    (∀ f ∈ [notB testConfig, notU testConfig], f (f a) = a) ∧
    notB testConfig (andB testConfig a b) = orB testConfig (notB testConfig a) (notB testConfig b) ∧
    notU testConfig (andU testConfig a b) = orU testConfig (notU testConfig a) (notU testConfig b) ∧
    xorB testConfig a a = 0x000#12 ∧
    (∀ i, i < 6 → codeAt (xorU testConfig a a).toNat i = 2 * codeAt a.toNat i % 3) ∧
    valB (notB testConfig a) = -valB a) ∧
  (∀ a b d : UWord, validWord a = true → validWord b = true → validWord d = true →
    (∀ f ∈ [andW testConfig, orW testConfig, xorW testConfig], f a b = f b a) ∧
    (∀ f ∈ [andW testConfig, orW testConfig], f (f a b) d = f a (f b d) ∧ f a a = a) ∧
    notW testConfig (notW testConfig a) = a ∧
    notW testConfig (andW testConfig a b) = orW testConfig (notW testConfig a) (notW testConfig b))

/-! ## Memory (20_memory.md) -/

/-- R54: a codec write replaces the 12 bits of its tryte in the two bytes of the window and changes no other tryte and no
other byte; the tryte reads back (the order of the two bytes is the spec's decision D5). -/
def Obligations.CodecWriteReplacesOneTryte : Prop :=
  ∀ (buf : Buffer) (n : Nat) (v : Tryte), Buffer.wf buf = true →
    let w := window buf n
    let w' := (w &&& ~~~(0x0FFF#16 <<< (12 * n % 8))) ||| (v.setWidth 16 <<< (12 * n % 8))
    let out := codecWrite buf n v
    readByte out (12 * n / 8) = w'.setWidth 8 ∧
    readByte out (12 * n / 8 + 1) = (w' >>> 8).setWidth 8 ∧
    (∀ m, m ≠ 12 * n / 8 → m ≠ 12 * n / 8 + 1 → readByte out m = readByte buf m) ∧
    codecRead out n = v ∧
    (∀ m, m ≠ n → codecRead out m = codecRead buf m) ∧
    Buffer.wf out = true

/-- R56: two neighbouring trytes share three bytes (byte order: the spec's decision D5). -/
def Obligations.TwoTrytesShareThreeBytes : Prop :=
  ∀ (buf : Buffer) (k : Nat),
    readByte buf (3 * k) = (codecRead buf (2 * k)).extractLsb' 0 8 ∧
    readByte buf (3 * k + 1) =
      ((codecRead buf (2 * k)).extractLsb' 8 4).setWidth 8 |||
        (((codecRead buf (2 * k + 1)).extractLsb' 0 4).setWidth 8 <<< 4) ∧
    readByte buf (3 * k + 2) = (codecRead buf (2 * k + 1)).extractLsb' 4 8

/-- R52: the size of a buffer is the least that holds 12 bits for each tryte, the window of a tryte starts at its bit
address, and every window lies inside the buffer (the size is the spec's decision D5). -/
def Obligations.BufferHoldsEveryWindow : Prop :=
  (∀ n, 3 * n ≤ 2 * bufferBytes n ∧ 2 * bufferBytes n < 3 * n + 2) ∧
  (∀ n, 8 * windowByte n + windowBit n = 12 * n ∧ windowBit n = if n % 2 = 0 then 0 else 4) ∧
  (∀ n size, n < size → windowByte n + 1 < bufferBytes size)

/-- R58, R60, R62: where an address leads when the regions satisfy their constraints. Each outcome has its own range, so
the order of the tests cannot be observed (the offset in a window is the spec's decision D23). -/
def Obligations.AddressDecodingOutcomes : Prop :=
  ∀ (c : Config) (v n : Nat), c.regionsOk = true →
    (locate c v = .mapped .ram n ↔ v < c.ramSize ∧ n = v) ∧
    (locate c v = .mapped .fb n ↔ c.fbBase ≤ v ∧ v < c.fbBase + c.fbSize ∧ n = v - c.fbBase) ∧
    (locate c v = .mapped .cit n ↔ c.citBase ≤ v ∧ v < c.citBase + c.citSize ∧ n = v - c.citBase) ∧
    (locate c v = .mapped .pal n ↔ c.palBase ≤ v ∧ v < c.palBase + c.palSize ∧ n = v - c.palBase) ∧
    (locate c v = .unmapped ↔ ¬ v < c.ramSize ∧ ¬ (c.fbBase ≤ v ∧ v < c.fbBase + c.fbSize) ∧
      ¬ (c.citBase ≤ v ∧ v < c.citBase + c.citSize) ∧ ¬ (c.palBase ≤ v ∧ v < c.palBase + c.palSize))

/-- R61: an access outside all mapped windows: the type's zero, or nothing, and no fault (which
pattern is zero is the spec's decision D24). -/
def Obligations.UnmappedAccess : Prop :=
  ∀ (s : State) (a : UWord) (t : Tryte), locate s.cfg (valU12 a) = .unmapped →
    s.readB a = .ok 0x555#12 ∧ s.readU a = .ok 0x000#12 ∧ valB 0x555#12 = 0 ∧ valU 0x000#12 = 0 ∧
    s.writeB a t = s ∧ s.writeU a t = s

/-- R63, R57: a mapped read answers the 12 bits of the cell through both functions, or raises the fault where a field of
the cell holds 3 (the fault is the spec's decision D22). -/
def Obligations.MappedRead : Prop :=
  ∀ (s : State) (a : UWord) (b : BufferName) (n : Nat), locate s.cfg (valU12 a) = .mapped b n →
    (validTryte (codecRead (s.mem.get b) n) = true →
      s.readB a = .ok (codecRead (s.mem.get b) n) ∧ s.readU a = .ok (codecRead (s.mem.get b) n)) ∧
    (validTryte (codecRead (s.mem.get b) n) = false →
      s.readB a = .error (.tritInvariantViolation a) ∧ s.readU a = .error (.tritInvariantViolation a))

/-- R59, R60, R57, R70: a write to a mapped address is what the cell then holds, in RAM and in the device windows alike;
every other cell, every register and the canonical form of memory are kept. -/
def Obligations.WriteIsReadBack : Prop :=
  ∀ (s : State) (a : UWord) (t : Tryte), s.mem.wf = true → s.cell (valU12 a) ≠ none →
    s.writeB a t = s.writeU a t ∧
    (s.writeB a t).cell (valU12 a) = some t ∧
    (∀ v, v ≠ valU12 a → (s.writeB a t).cell v = s.cell v) ∧
    s.writeB a t = { s with mem := (s.writeB a t).mem } ∧
    (s.writeB a t).mem.wf = true

/-- R375, R71, R52: a host write changes one byte of one buffer and nothing else, and the host reads it back; a byte that
the buffer does not have is refused (the refusal is the model's choice, log 13, as is what a read there gives, log 16). -/
def Obligations.HostBufferAccess : Prop :=
  ∀ (s : State) (b : BufferName) (n : Nat) (v : Byte), s.mem.wf = true →
    (n < bufferBytes (regionSize s.cfg b) →
      ∃ t, s.hostWrite b n v = .next t ∧ t = { s with mem := t.mem } ∧ t.hostRead b n = v ∧
        (∀ q m, (q ≠ b ∨ m ≠ n) → t.hostRead q m = s.hostRead q m) ∧ t.mem.wf = true) ∧
    (bufferBytes (regionSize s.cfg b) ≤ n → s.hostWrite b n v = .refused .outsideBuffer)

/-! ## Encoding (30_encoding.md) -/

/-- R80, R82, R84 to R86: under every dispatch table, decoding the trytes of a well-formed instruction gives the
instruction back and leaves the rest of the stream. -/
def Obligations.DecodeOfEncode : Prop :=
  ∀ (m : Opmap) (i : Instr) (ts rest : List Tryte), opmapOk m = true → i.wellFormedFor m = true →
    encodeFor m i = some ts → decode m (ts ++ rest) = .ok (i, rest)

/-- R90: DEFAULT_OPMAP assigns an encoding to every well-formed instruction, of the length of its format and of valid
trytes. -/
def Obligations.EveryInstructionEncodes : Prop :=
  ∀ i : Instr, i.wellFormed = true →
    encodeFor defaultOpmap i = some (encode i) ∧ (encode i).length = i.op.length ∧
    (encode i).all validTryte = true ∧ decode defaultOpmap (encode i) = .ok (i, [])

/-- R81, R85, R86: under DEFAULT_OPMAP what the decoder accepts is what the encoder writes: no two streams stand for one
instruction and no bit of an instruction is dropped. -/
def Obligations.EncodeOfDecode : Prop :=
  ∀ (ts rest : List Tryte) (i : Instr), decode defaultOpmap ts = .ok (i, rest) →
    i.wellFormed = true ∧ encode i ++ rest = ts

/-- R81, R82, R85, R86: the opcode tryte alone says what the instruction is and how long it is; a tryte with a field
holding 3 is no instruction. -/
def Obligations.OpcodeTryteDecides : Prop :=
  ∀ (m : Opmap) (t0 t1 t2 : Tryte) (rest : List Tryte),
    (validTryte t0 = false → decode m (t0 :: t1 :: t2 :: rest) = .error (.codeThree 0)) ∧
    (validTryte t0 = true → validTryte t1 = true → validTryte t2 = true →
      ∃ i, decode m (t0 :: t1 :: t2 :: rest) =
          .ok (i, (t0 :: t1 :: t2 :: rest).drop (opOf m (valU t0)).length) ∧
        i.op = opOf m (valU t0) ∧
        i.operands = [t1, t2].take ((opOf m (valU t0)).length - 1))

/-- R82, R90, R93: a few words of the opcode table, written out from the spec's encodings, decode to what they stand for:
trytes `0x040 0x595` are `LDA #27`, `0x041 0x441 0x001` are `LDA 1000`. -/
def Obligations.WrittenOutWordsDecode : Prop :=
  decode defaultOpmap [0x040#12, 0x595#12] = .ok (.ldaImm 0x595#12, []) ∧
  decodeTableWord 36 0x001441041 = some (.ldaAbs 0x001441#24) ∧
  decodeTableWord 36 0x005104050 = some (.staAbs 0x005104#24) ∧
  decodeTableWord 24 0x559200 = some (.add 0x559#12) ∧
  decodeTableWord 12 0x240 = some .tac ∧
  decodeTableWord 12 0x280 = some .tyxsp ∧
  decodeTableWord 36 0x001821400 = some (.jmp 0x001821#24) ∧
  decodeTableWord 36 0x001821401 = some (.bpos 0x001821#24) ∧
  decodeTableWord 24 0x556440 = some (.setou 0x556#12) ∧
  decodeTableWord 12 0x000 = some (.invalid 0x000#12) ∧
  decodeTableWord 12 0x003 = none

/-- R89: the values of the septemvigesimal literals and the six bits of each digit (their order is the spec's decision
D27). -/
def Obligations.SeptemvigesimalLiterals : Prop :=
  (∀ h l : Nat, h < 27 → l < 27 →
    valU (septemTryte h l) = 27 * h + l ∧
    (septemTryte h l).toNat / 64 = digitsEnc 3 h ∧ (septemTryte h l).toNat % 64 = digitsEnc 3 l) ∧
  (∀ g3 g2 g1 g0 : Nat, g3 < 27 → g2 < 27 → g1 < 27 → g0 < 27 →
    valU12 (septemWord g3 g2 g1 g0) = 19683 * g3 + 729 * g2 + 27 * g1 + g0 ∧
    septemWord g3 g2 g1 g0 = wordOf (septemTryte g1 g0) (septemTryte g3 g2)) ∧
  (∀ k, k < 27 → ("0123456789ABCDEFGHIJKLMNOPQ".toList[k]?).bind septemDigit = some k) ∧
  septemTryte 1 0 = 0x040#12 ∧ septemTryte 13 13 = 0x555#12 ∧ septemTryte 26 26 = 0xAAA#12 ∧
  septemWord 1 2 3 4 = 0x042105#24 ∧ septemWord 0 1 18 19 = 0x001821#24

/-- R30: the trit of each field of F, and F and its 12 bits determine each other. -/
def Obligations.FlagRegisterLayout : Prop :=
  (∀ f : Flags,
    codeAt f.pack.toNat 5 = f.s.code ∧ codeAt f.pack.toNat 4 = f.ou.code ∧ codeAt f.pack.toNat 3 = f.cb.code ∧
    codeAt f.pack.toNat 2 = f.i.trit.code ∧ codeAt f.pack.toNat 1 = f.bu.trit.code ∧
    codeAt f.pack.toNat 0 = f.r0.code ∧ validTryte f.pack = true ∧ Flags.unpack f.pack = some f) ∧
  (∀ (b : Tryte) (f : Flags), Flags.unpack b = some f → f.pack = b)

/-! ## Reset (70_reset_and_hazards.md) -/

/-- R360 to R362, R365 to R367: the machine constructed from an admissible configuration and an image; with a
valid image it is in a good state (R38). The zeros of F are the spec's decision D6, the latches and the phase D19, and PC,
SP and the image are the caller's. -/
def Obligations.ConstructionIsReset : Prop :=
  ∀ (c : Config) (image : Memory), c.admissible = true → image.wf = true → image.fits c = true →
    ∃ t, construct c image = .next t ∧
      t.a = 0x555#12 ∧ t.c = 0x555#12 ∧ t.d = 0x555#12 ∧ t.x = 0x555#12 ∧ t.y = 0x555#12 ∧ valB 0x555#12 = 0 ∧
      t.f = { s := .zero, ou := .zero, cb := .zero, i := .set, bu := .balanced, r0 := .zero } ∧
      t.f.pack = 0x569#12 ∧ valB t.f.pack = 12 ∧
      t.pc = c.resetPc ∧ t.sp = c.resetSp ∧ t.db = 0x555#12 ∧ t.al = 0x000000#24 ∧
      t.phase = .fetch ∧ t.mem = image ∧ t.cfg = c ∧ (t.cellsValid → t.Good)

/-- R355, R62: a configuration whose regions overlap, or one that reaches past the address space, is refused. -/
def Obligations.BadRegionsAreRefused : Prop :=
  ∀ (c : Config) (image : Memory) (v : Nat),
    ((v < c.ramSize ∧ c.fbBase ≤ v ∧ v < c.fbBase + c.fbSize) ∨
     (v < c.ramSize ∧ c.citBase ≤ v ∧ v < c.citBase + c.citSize) ∨
     (v < c.ramSize ∧ c.palBase ≤ v ∧ v < c.palBase + c.palSize) ∨
     (c.fbBase ≤ v ∧ v < c.fbBase + c.fbSize ∧ c.citBase ≤ v ∧ v < c.citBase + c.citSize) ∨
     (c.fbBase ≤ v ∧ v < c.fbBase + c.fbSize ∧ c.palBase ≤ v ∧ v < c.palBase + c.palSize) ∨
     (c.citBase ≤ v ∧ v < c.citBase + c.citSize ∧ c.palBase ≤ v ∧ v < c.palBase + c.palSize) ∨
     531441 < c.ramSize ∨ 531441 < c.fbBase + c.fbSize ∨ 531441 < c.citBase + c.citSize ∨ 531441 < c.palBase + c.palSize) →
    construct c image = .refused .badConfiguration

/-- The model's reset state (logs 3 and 4: DESIGN CHOICE of the configuration and of the zero image): it is the construction
from TEST_CONFIG with nothing listed in memory, and it is good. -/
def Obligations.ResetStateOfTheModel : Prop :=
  construct testConfig Memory.empty = .next State.reset ∧ State.reset.Good ∧
  valU12 State.reset.pc = 0 ∧ valU12 State.reset.sp = 531440 ∧
  (∀ v, v < 19683 → State.reset.cell v = some 0x000#12)

/-! ## Steps (42_fetch_execute.md, 60_exceptions.md) -/

/-- R38, R36, R104: every tick from a good state ends in a good state. -/
def Obligations.TickKeepsGood : Prop :=
  ∀ s t : State, s.Good → tick s = .next t → t.Good

/-- R38, R36: every step from a good state ends in a good state. -/
def Obligations.StepKeepsGood : Prop :=
  ∀ s t : State, s.Good → step s = .next t → t.Good

/-- R170, R174, R340: from every good state, also in mid instruction, the tick and the step complete, and the step ends at an
instruction boundary. -/
def Obligations.GoodStatesGoOn : Prop :=
  ∀ s : State, s.Good → (∃ u, tick s = .next u) ∧ ∃ t, step s = .next t ∧ t.phase = .fetch

/-- R38, R341, R367: from a machine constructed with a valid image, no number of ticks meets the fault and every state
reached is good (where the fault is raised is the spec's decision D22). A corollary of `TickKeepsGood` and
`GoodStatesGoOn`. -/
def Obligations.ValidImageRunsAreSafe : Prop :=
  ∀ (c : Config) (image : Memory) (s : State), construct c image = .next s → s.cellsValid →
    ∀ n, safeTicks n s ∧ ∀ t, runTicks n s = .next t → t.Good

/-- R21: no tick, no step and no host write changes the configuration (that State carries it is the model's choice,
log 2). -/
def Obligations.ConfigurationIsConstant : Prop :=
  (∀ s t : State, tick s = .next t → t.cfg = s.cfg) ∧
  (∀ s t : State, step s = .next t → t.cfg = s.cfg) ∧
  (∀ (s t : State) (b : BufferName) (n : Nat) (v : Byte), s.hostWrite b n v = .next t → t.cfg = s.cfg)

/-- R7, R174: from an instruction boundary the step is the run of the instruction's ticks, fault for fault, and no tick
before the last is at a boundary. That a step is a whole instruction is the model's choice (log 1). -/
def Obligations.StepIsTheRunOfItsTicks : Prop :=
  ∀ s : State, s.phase = .fetch →
    step s = tickToBoundary maxTicks s ∧
    ∀ (t0 : Tryte) (i : Instr), s.fetchInstr = .ok (t0, i) →
      step s = runTicks (opTicks i.op s.f) s ∧
      ∀ (k : Nat) (u : State), 0 < k → k < opTicks i.op s.f → runTicks k s = .next u → u.phase ≠ .fetch

/-- R188: the ticks and the memory accesses of every form, step by step after the fetch, and at most one access per step
(R66, R173): no list below holds more than one (the cut into ticks is the spec's
decision D9). -/
def Obligations.TicksAndAccessesOfEveryForm : Prop :=
  let accesses (o : Op) : List (List Access) := (opChain o).map (fun ps => ps.filterMap Prim.access)
  (∀ t, accesses (.xfer t) = [[]]) ∧ (∀ k, accesses (.add .regD k) = [[]]) ∧ accesses .invalid = [[]] ∧
  accesses .tyxsp = [[], []] ∧ accesses .tspyx = [[], []] ∧
  (∀ r, accesses (.ld r .imm) = [[.operand]]) ∧ (∀ k, accesses (.add .imm k) = [[.operand]]) ∧
  (∀ f, accesses (.setFlag f) = [[.operand]]) ∧
  (∀ r, accesses (.ld r (.mem .abs)) = [[.operand], [.operand], [.dataRead]]) ∧
  (∀ r, ∀ m ∈ [AddrMode.absX, .absY], accesses (.ld r (.mem m)) = [[.operand], [.operand], [], [.dataRead]]) ∧
  (∀ r, accesses (.ld r (.mem .ind)) = [[.operand], [.operand], [.pointer], [.pointer], [.dataRead]]) ∧
  (∀ r, ∀ m ∈ [AddrMode.indX, .indY],
    accesses (.ld r (.mem m)) = [[.operand], [.operand], [.pointer], [.pointer], [], [.dataRead]]) ∧
  (∀ r, accesses (.st r .abs) = [[.operand], [.operand], [.dataWrite]]) ∧
  (∀ r, ∀ m ∈ [StMode.absX, .absY], accesses (.st r m) = [[.operand], [.operand], [], [.dataWrite]]) ∧
  accesses .jmp = [[.operand], [.operand], []] ∧
  (∀ c, accesses (.branch c) = [[.operand], [.operand], []]) ∧
  (∀ o f, opTicks o f = match o with
    | .branch c => if condHolds c f then 4 else 3
    | _ => 1 + (accesses o).length)

/-- R171: the fetch tick (that it passes through DB is the spec's decision D10). -/
def Obligations.FetchTick : Prop :=
  ∀ s : State, s.phase = .fetch →
    (∀ t0, s.readU s.pc = .ok t0 →
      tick s = .next { s with
        db := t0, pc := encU12 (valU12 s.pc + 1), phase := .execute ⟨opOf s.cfg.opmap (valU t0), 1⟩ }) ∧
    (∀ e, s.readU s.pc = .error e → tick s = .fault e)

/-- A step at an instruction boundary runs the decoded instruction: where the trytes at PC, read with the functions that the
format uses (R171, R176, R177, R180, R330), decode to `i`, the step is `exec i` on the state after the fetch tick (the model's choice of
where `exec` starts, log 10). -/
def Obligations.StepRunsTheDecodedInstruction : Prop :=
  ∀ (s : State) (t0 t1 t2 : Tryte) (i : Instr) (rest : List Tryte), s.phase = .fetch →
    s.readU s.pc = .ok t0 →
    (match (opOf s.cfg.opmap (valU t0)).format with
      | .imp => True
      | .imm => s.rdM (encU12 (valU12 s.pc + 1)) = .ok t1
      | .immb => s.readB (encU12 (valU12 s.pc + 1)) = .ok t1
      | .abs3 => s.readU (encU12 (valU12 s.pc + 1)) = .ok t1 ∧ s.readU (encU12 (valU12 s.pc + 2)) = .ok t2) →
    decode s.cfg.opmap [t0, t1, t2] = .ok (i, rest) →
    step s = exec i { s with
      db := t0, pc := encU12 (valU12 s.pc + 1), phase := .execute ⟨opOf s.cfg.opmap (valU t0), 1⟩ }

/-- R336, R87: an opcode number that the dispatch table does not assign is a no-op of one tryte (that it returns to Fetch is
the spec's decision D16; the default table D1). -/
def Obligations.UnassignedOpcodeIsNoOp : Prop :=
  (∀ (t : Tryte) (s : State), exec (.invalid t) s = .next { s with phase := .fetch }) ∧
  (∀ (s : State) (t0 : Tryte), s.phase = .fetch → s.readU s.pc = .ok t0 →
    (∀ e ∈ s.cfg.opmap, e.1 ≠ valU t0) →
    step s = .next { s with db := t0, pc := encU12 (valU12 s.pc + 1) }) ∧
  defaultOpmap.length = 101 ∧ opOf defaultOpmap 0 = .invalid ∧ opOf defaultOpmap 364 = .invalid

/-- R341, R63: the only fault is the trit-invariant violation, and the address it names is mapped and its cell has a field
holding 3. -/
def Obligations.EveryFaultIsABadCell : Prop :=
  (∀ (s : State) (a : UWord), tick s = .fault (.tritInvariantViolation a) →
    ∃ t, s.cell (valU12 a) = some t ∧ validTryte t = false) ∧
  (∀ (s : State) (a : UWord), step s = .fault (.tritInvariantViolation a) →
    ∃ t, s.cell (valU12 a) = some t ∧ validTryte t = false) ∧
  (∀ (i : Instr) (s : State) (a : UWord), exec i s = .fault (.tritInvariantViolation a) →
    ∃ t, s.cell (valU12 a) = some t ∧ validTryte t = false)

/-- R340, R342: no instruction is refused, and no tick or step is, but in a phase that names no step of a chain (the
refusal there is the model's choice, log 13). -/
def Obligations.NothingIsRefused : Prop :=
  (∀ (i : Instr) (s : State) (r : Refusal), exec i s ≠ .refused r) ∧
  (∀ (s : State) (r : Refusal), s.phaseOk = true → tick s ≠ .refused r ∧ step s ≠ .refused r)

/-- R340: every instruction completes at an instruction boundary on every state whose mapped cells are valid, and every
instruction but a load from memory on every state whatever. -/
def Obligations.EveryInstructionCompletes : Prop :=
  ∀ (i : Instr) (s : State), (s.cellsValid ∨ ∀ r m, i.op ≠ .ld r (.mem m)) →
    ∃ t, exec i s = .next t ∧ t.phase = .fetch

/-! ## Instructions: results and frames -/

/-- R180, R186, R189, R200: the five immediate loads. Every field that is not named keeps its value (unbalanced values
in registers: the spec's decision D2). -/
def Obligations.LoadImmediateResult : Prop :=
  ∀ e ∈ [(Reg.a, Instr.ldaImm), (.c, .ldcImm), (.d, .lddImm), (.x, .ldxImm), (.y, .ldyImm)],
    ∀ (v : Tryte) (s : State),
      (s.f.bu = .balanced → exec (e.2 v) s = .next (({ s with
        db := v, pc := encU12 (valU12 s.pc + 1), phase := .fetch, f := { s.f with s := sgn (valB v) } } : State).setReg e.1 v)) ∧
      (s.f.bu = .unbalanced → exec (e.2 v) s = .next (({ s with
        db := v, pc := encU12 (valU12 s.pc + 1), phase := .fetch,
        f := { s.f with s := if valU v = 0 then .zero else .pos } } : State).setReg e.1 (encB (valU v))))

/-- R179, R181 to R184: the effective addresses of the memory forms: the operand word, the word plus the signed index
register modulo 531441, the pointer stored low tryte first at the word, the pointer plus the index (decisions D11 and D12 of the spec). -/
def Obligations.EffectiveAddresses : Prop :=
  ∀ (s : State) (w : UWord),
    s.loadAddress .abs w = .ok w ∧ s.storeAddress .abs w = w ∧
    (∃ ea, s.loadAddress .absX w = .ok ea ∧ s.storeAddress .absX w = ea ∧ validWord ea = true ∧
      (valU12 ea : Int) = (valU12 w + valB s.x) % 531441) ∧
    (∃ ea, s.loadAddress .absY w = .ok ea ∧ s.storeAddress .absY w = ea ∧ validWord ea = true ∧
      (valU12 ea : Int) = (valU12 w + valB s.y) % 531441) ∧
    (∀ lo hi, s.readU w = .ok lo → s.readU (encU12 (valU12 w + 1)) = .ok hi →
      s.loadAddress .ind w = .ok (wordOf lo hi) ∧
      (∃ ea, s.loadAddress .indX w = .ok ea ∧ validWord ea = true ∧
        (valU12 ea : Int) = (valU lo + 729 * valU hi + valB s.x) % 531441) ∧
      (∃ ea, s.loadAddress .indY w = .ok ea ∧ validWord ea = true ∧
        (valU12 ea : Int) = (valU lo + 729 * valU hi + valB s.y) % 531441)) ∧
    (∀ e, (s.readU w = .error e ∨ (∃ lo, s.readU w = .ok lo ∧ s.readU (encU12 (valU12 w + 1)) = .error e)) →
      s.loadAddress .ind w = .error e ∧ s.loadAddress .indX w = .error e ∧ s.loadAddress .indY w = .error e)

/-- R181 to R184, R186, R189, R200: the thirty loads from memory: with effective address `ea` and datum `b`, the register,
F.S, the latches and PC change and nothing else; where a pointer or datum read stops, the load is that fault. -/
def Obligations.LoadMemoryResult : Prop :=
  ∀ e ∈ [(Reg.a, AddrMode.abs, Instr.ldaAbs), (.a, .absX, .ldaAbsX), (.a, .absY, .ldaAbsY),
         (.a, .ind, .ldaInd), (.a, .indX, .ldaIndX), (.a, .indY, .ldaIndY),
         (.c, .abs, .ldcAbs), (.c, .absX, .ldcAbsX), (.c, .absY, .ldcAbsY),
         (.c, .ind, .ldcInd), (.c, .indX, .ldcIndX), (.c, .indY, .ldcIndY),
         (.d, .abs, .lddAbs), (.d, .absX, .lddAbsX), (.d, .absY, .lddAbsY),
         (.d, .ind, .lddInd), (.d, .indX, .lddIndX), (.d, .indY, .lddIndY),
         (.x, .abs, .ldxAbs), (.x, .absX, .ldxAbsX), (.x, .absY, .ldxAbsY),
         (.x, .ind, .ldxInd), (.x, .indX, .ldxIndX), (.x, .indY, .ldxIndY),
         (.y, .abs, .ldyAbs), (.y, .absX, .ldyAbsX), (.y, .absY, .ldyAbsY),
         (.y, .ind, .ldyInd), (.y, .indX, .ldyIndX), (.y, .indY, .ldyIndY)],
    ∀ (w : UWord) (s : State),
      (∀ ea b, s.loadAddress e.2.1 w = .ok ea → s.f.bu = .balanced → s.readB ea = .ok b →
        exec (e.2.2 w) s = .next (({ s with
          db := b, al := ea, pc := encU12 (valU12 s.pc + 2), phase := .fetch,
          f := { s.f with s := sgn (valB b) } } : State).setReg e.1 b)) ∧
      (∀ ea b, s.loadAddress e.2.1 w = .ok ea → s.f.bu = .unbalanced → s.readU ea = .ok b →
        exec (e.2.2 w) s = .next (({ s with
          db := b, al := ea, pc := encU12 (valU12 s.pc + 2), phase := .fetch,
          f := { s.f with s := if valU b = 0 then .zero else .pos } } : State).setReg e.1 (encB (valU b)))) ∧
      (∀ err, s.loadAddress e.2.1 w = .error err → exec (e.2.2 w) s = .fault err) ∧
      (∀ ea err, s.loadAddress e.2.1 w = .ok ea → s.rdM ea = .error err → exec (e.2.2 w) s = .fault err)

/-- R181, R182, R187, R189, R201: the fifteen stores: the cell at the effective address holds the register's pattern of
the mode, where it is mapped; every other cell, every byte outside the cell's window, every register and every flag keep
their value. -/
def Obligations.StoreResult : Prop :=
  ∀ e ∈ [(Reg.a, StMode.abs, Instr.staAbs), (.a, .absX, .staAbsX), (.a, .absY, .staAbsY),
         (.c, .abs, .stcAbs), (.c, .absX, .stcAbsX), (.c, .absY, .stcAbsY),
         (.d, .abs, .stdAbs), (.d, .absX, .stdAbsX), (.d, .absY, .stdAbsY),
         (.x, .abs, .stxAbs), (.x, .absX, .stxAbsX), (.x, .absY, .stxAbsY),
         (.y, .abs, .styAbs), (.y, .absX, .styAbsX), (.y, .absY, .styAbsY)],
    ∀ (w : UWord) (s : State), s.mem.wf = true →
      let ea := s.storeAddress e.2.1 w
      let out : Tryte := match s.f.bu with
        | .balanced => s.reg e.1
        | .unbalanced => encU (valB (s.reg e.1))
      ∃ t, exec (e.2.2 w) s = .next t ∧
        t = { s with db := out, al := ea, pc := encU12 (valU12 s.pc + 2), phase := .fetch, mem := t.mem } ∧
        (s.cell (valU12 ea) ≠ none → t.cell (valU12 ea) = some out) ∧
        (s.cell (valU12 ea) = none → t.mem = s.mem) ∧
        (∀ v, v ≠ valU12 ea → t.cell v = s.cell v) ∧
        (∀ b n, (∀ k, locate s.cfg (valU12 ea) = .mapped b k → n ≠ 12 * k / 8 ∧ n ≠ 12 * k / 8 + 1) →
          t.hostRead b n = s.hostRead b n) ∧
        t.mem.wf = true

/-- R260, R262 to R268: the six adds in balanced mode. F.CB and every field that is not named keep their value (the
spec's decisions D13 and D14). -/
def Obligations.BalancedAddResult : Prop :=
  ∀ (s : State), s.f.bu = .balanced →
    let a := valB s.a
    let after (m12 : Tryte) (d : Int) (u : State) : State :=
      let m := valB m12
      let r := wrapB (a + m + d)
      { u with
        a := encB r, phase := .fetch,
        f := { s.f with s := sgn r, ou := if m > 0 ∧ r < a then .pos else if m < 0 ∧ r > a then .neg else .zero } }
    let carry : Int := if s.f.cb = .pos then 1 else 0
    let borrow : Int := if s.f.cb = .neg then -1 else 0
    let delta : Int := if s.f.cb = .neg then (match s.cfg.adddbDelta with | .minusOne => -1 | .plusOne => 1) else 0
    (∀ v : Tryte,
      let u : State := { s with db := v, pc := encU12 (valU12 s.pc + 1) }
      exec (.add v) s = .next (after v 0 u) ∧ exec (.addc v) s = .next (after v carry u) ∧
      exec (.addb v) s = .next (after v borrow u)) ∧
    exec .addd s = .next (after s.d 0 s) ∧ exec .adddc s = .next (after s.d carry s) ∧
    exec .adddb s = .next (after s.d delta s)

/-- R261, R262 to R268: the six adds in unbalanced mode. F.OU and every field that is not named keep their value (the
spec's decisions D13 and D14). -/
def Obligations.UnbalancedAddResult : Prop :=
  ∀ (s : State), s.f.bu = .unbalanced →
    let a := valB s.a % 729
    let after (m d : Int) (u : State) : State :=
      let r := (a + m + d) % 729
      { u with
        a := encB r, phase := .fetch,
        f := { s.f with s := (if r = 0 then .zero else .pos), cb := if r < a then .pos else .zero } }
    let carry : Int := if s.f.cb = .pos then 1 else 0
    let borrow : Int := if s.f.cb = .neg then -1 else 0
    let delta : Int := if s.f.cb = .neg then (match s.cfg.adddbDelta with | .minusOne => -1 | .plusOne => 1) else 0
    (∀ v : Tryte,
      let u : State := { s with db := v, pc := encU12 (valU12 s.pc + 1) }
      exec (.add v) s = .next (after (valU v) 0 u) ∧ exec (.addc v) s = .next (after (valU v) carry u) ∧
      exec (.addb v) s = .next (after (valU v) borrow u)) ∧
    exec .addd s = .next (after (valB s.d % 729) 0 s) ∧ exec .adddc s = .next (after (valB s.d % 729) carry s) ∧
    exec .adddb s = .next (after (valB s.d % 729) delta s)

/-- R270 to R290: the twenty transfers copy the source's 12 bits to the destination and change nothing else. -/
def Obligations.TransferResult : Prop :=
  ∀ s : State,
    exec .tac s = .next { s with c := s.a, phase := .fetch } ∧
    exec .tad s = .next { s with d := s.a, phase := .fetch } ∧
    exec .tax s = .next { s with x := s.a, phase := .fetch } ∧
    exec .tay s = .next { s with y := s.a, phase := .fetch } ∧
    exec .tca s = .next { s with a := s.c, phase := .fetch } ∧
    exec .tcd s = .next { s with d := s.c, phase := .fetch } ∧
    exec .tcx s = .next { s with x := s.c, phase := .fetch } ∧
    exec .tcy s = .next { s with y := s.c, phase := .fetch } ∧
    exec .tda s = .next { s with a := s.d, phase := .fetch } ∧
    exec .tdc s = .next { s with c := s.d, phase := .fetch } ∧
    exec .tdx s = .next { s with x := s.d, phase := .fetch } ∧
    exec .tdy s = .next { s with y := s.d, phase := .fetch } ∧
    exec .txa s = .next { s with a := s.x, phase := .fetch } ∧
    exec .txc s = .next { s with c := s.x, phase := .fetch } ∧
    exec .txd s = .next { s with d := s.x, phase := .fetch } ∧
    exec .txy s = .next { s with y := s.x, phase := .fetch } ∧
    exec .tya s = .next { s with a := s.y, phase := .fetch } ∧
    exec .tyc s = .next { s with c := s.y, phase := .fetch } ∧
    exec .tyd s = .next { s with d := s.y, phase := .fetch } ∧
    exec .tyx s = .next { s with x := s.y, phase := .fetch }

/-- R291, R292: the stack-pointer transfers: their results by value, their frames, and that each undoes the other (the
spec's decision D17). -/
def Obligations.StackPointerTransfers : Prop :=
  ∀ s : State,
    (∃ t, exec .tyxsp s = .next t ∧ t = { s with sp := t.sp, phase := .fetch } ∧
      t.sp = wordOf (encU (valB s.x)) (encU (valB s.y)) ∧
      (valU12 t.sp : Int) = valB s.x % 729 + 729 * (valB s.y % 729) ∧
      (validTryte s.x = true → validTryte s.y = true → exec .tspyx t = .next t)) ∧
    (∃ t, exec .tspyx s = .next t ∧ t = { s with x := t.x, y := t.y, phase := .fetch } ∧
      valB t.x = wrapB (valU (loTryte s.sp)) ∧ valB t.y = wrapB (valU (hiTryte s.sp)) ∧
      t.x = encB (valU (loTryte s.sp)) ∧ t.y = encB (valU (hiTryte s.sp)) ∧
      (validWord s.sp = true → exec .tyxsp t = .next t))

/-- R300 to R319, R189: the jump and the eighteen branches: taken, PC is the target; not taken, PC is behind the
instruction and the high half of AL is stale; no flag and no other register changes (the place of the test is the spec's
decision D25). -/
def Obligations.JumpAndBranchResult : Prop :=
  (∀ (w : UWord) (s : State),
    exec (.jmp w) s = .next { s with pc := w, al := w, db := hiTryte w, phase := .fetch }) ∧
  ∀ e ∈ [((fun f => f.s == .pos), Instr.bpos), ((fun f => f.s == .zero), .bzer), ((fun f => f.s == .neg), .bneg),
         ((fun f => f.s != .pos), .bnpos), ((fun f => f.s != .zero), .bnzer), ((fun f => f.s != .neg), .bnneg),
         ((fun f => f.ou == .pos), .bovf), ((fun f => f.ou == .zero), .bneu), ((fun f => f.ou == .neg), .bunf),
         ((fun f => f.ou != .pos), .bnovf), ((fun f => f.ou != .zero), .bnneu), ((fun f => f.ou != .neg), .bnunf),
         ((fun f => f.cb == .pos), .bcar), ((fun f => f.cb == .zero), .bncb), ((fun f => f.cb == .neg), .bbor),
         ((fun f => f.cb != .pos), .bncar), ((fun f => f.cb != .zero), .bcob),
         ((fun f : Flags => f.cb != .neg), .bnbor)],
    ∀ (w : UWord) (s : State),
      (e.1 s.f = true →
        exec (e.2 w) s = .next { s with pc := w, al := w, db := hiTryte w, phase := .fetch }) ∧
      (e.1 s.f = false →
        exec (e.2 w) s = .next { s with
          pc := encU12 (valU12 s.pc + 2), al := wordOf (loTryte w) (hiTryte s.al), db := hiTryte w, phase := .fetch })

/-- R330 to R335: the four flag-set instructions: one trit of F, by the operand's balanced value in either mode (the
toggle and the other operands are the spec's decision D8). -/
def Obligations.FlagSetResult : Prop :=
  ∀ (v : Tryte) (s : State),
    let u : State := { s with db := v, pc := encU12 (valU12 s.pc + 1), phase := .fetch }
    let toggled (d : Trit) : Trit := match d with
      | .neg => s.cfg.flagToggle.onNeg
      | .zero => s.cfg.flagToggle.onZero
      | .pos => s.cfg.flagToggle.onPos
    (valB v = 1 →
      exec (.setou v) s = .next { u with f := { s.f with ou := .pos } } ∧
      exec (.setcb v) s = .next { u with f := { s.f with cb := .pos } } ∧
      exec (.seti v) s = .next { u with f := { s.f with i := .set } } ∧
      exec (.setbu v) s = .next { u with f := { s.f with bu := .balanced } }) ∧
    (valB v = -1 →
      exec (.setou v) s = .next { u with f := { s.f with ou := .neg } } ∧
      exec (.setcb v) s = .next { u with f := { s.f with cb := .neg } } ∧
      exec (.seti v) s = .next { u with f := { s.f with i := .clear } } ∧
      exec (.setbu v) s = .next { u with f := { s.f with bu := .unbalanced } }) ∧
    (valB v = 0 →
      exec (.setou v) s = .next { u with f := { s.f with ou := toggled s.f.ou } } ∧
      exec (.setcb v) s = .next { u with f := { s.f with cb := toggled s.f.cb } } ∧
      exec (.seti v) s = .next u ∧ exec (.setbu v) s = .next u) ∧
    (valB v ≠ 1 → valB v ≠ -1 → valB v ≠ 0 →
      exec (.setou v) s = .next u ∧ exec (.setcb v) s = .next u ∧
      exec (.seti v) s = .next u ∧ exec (.setbu v) s = .next u)

/-! ## Frames over all instructions (10_state.md) -/

/-- R23, R26: which instructions can change which register. -/
def Obligations.RegisterWriters : Prop :=
  ∀ (i : Instr) (s t : State), exec i s = .next t →
    (t.a ≠ s.a → (∃ m, i.op = .ld .a m) ∨ (∃ src k, i.op = .add src k) ∨ i ∈ [.tca, .tda, .txa, .tya]) ∧
    (t.c ≠ s.c → (∃ m, i.op = .ld .c m) ∨ i ∈ [.tac, .tdc, .txc, .tyc]) ∧
    (t.d ≠ s.d → (∃ m, i.op = .ld .d m) ∨ i ∈ [.tad, .tcd, .txd, .tyd]) ∧
    (t.x ≠ s.x → (∃ m, i.op = .ld .x m) ∨ i ∈ [.tax, .tcx, .tdx, .tyx, .tspyx]) ∧
    (t.y ≠ s.y → (∃ m, i.op = .ld .y m) ∨ i ∈ [.tay, .tcy, .tdy, .txy, .tspyx]) ∧
    (t.sp ≠ s.sp → i = .tyxsp)

/-- R31 to R36: which instructions can change which trit of F (that a balanced add leaves CB and an unbalanced add leaves
OU is the spec's decision D13). -/
def Obligations.FlagWriters : Prop :=
  ∀ (i : Instr) (s t : State), exec i s = .next t →
    (t.f.s ≠ s.f.s → (∃ r m, i.op = .ld r m) ∨ ∃ src k, i.op = .add src k) ∧
    (t.f.ou ≠ s.f.ou → ((∃ src k, i.op = .add src k) ∧ s.f.bu = .balanced) ∨ i.op = .setFlag .ou) ∧
    (t.f.cb ≠ s.f.cb → ((∃ src k, i.op = .add src k) ∧ s.f.bu = .unbalanced) ∨ i.op = .setFlag .cb) ∧
    (t.f.i ≠ s.f.i → i.op = .setFlag .i) ∧
    (t.f.bu ≠ s.f.bu → i.op = .setFlag .bu) ∧
    t.f.r0 = s.f.r0

/-- R24, R25: PC after an instruction: behind its operand trytes, or the operand word of a jump or of a branch whose
condition holds. -/
def Obligations.ProgramCounterAfterInstruction : Prop :=
  ∀ (i : Instr) (s t : State), exec i s = .next t →
    ((i.op = .jmp ∨ ∃ c, i.op = .branch c ∧ condHolds c s.f = true) → i.operands = [loTryte t.pc, hiTryte t.pc]) ∧
    (¬ (i.op = .jmp ∨ ∃ c, i.op = .branch c ∧ condHolds c s.f = true) →
      (i.op.length = 1 → t.pc = s.pc) ∧
      (i.op.length ≠ 1 → t.pc = encU12 (valU12 s.pc + (i.op.length - 1 : Nat))))

/-- R60, R70, R201: only a store changes memory, and of memory only the cell at its effective address. -/
def Obligations.OnlyStoresWriteMemory : Prop :=
  ∀ (i : Instr) (s t : State), s.mem.wf = true → exec i s = .next t →
    ((∀ r m, i.op ≠ .st r m) → t.mem = s.mem) ∧
    (∀ r m lo hi, i.op = .st r m → i.operands = [lo, hi] →
      ∀ v, v ≠ valU12 (s.storeAddress m (wordOf lo hi)) → t.cell v = s.cell v)

end
end

