-- ==== Sys2Proof/Laws/Memory.lean ====
section
/-!
SUPPORT. Every memory operation keeps the canonical form, the reset memory has it, and a byte written is read back with every
other byte as before.
-/

namespace Sys2Proof.Machine

/-- Reading in front of a cell that may have been left out. -/
theorem readByte_consCell (n m : Nat) (v : Byte) (rest : Buffer) (h : n = m → readByte rest m = unlistedByte) :
    readByte (consCell n v rest) m = if n = m then v else readByte rest m := by
  unfold consCell
  by_cases hv : v = unlistedByte <;> by_cases hm : n = m <;> simp_all [readByte]

/-- An offset below every listed one reads the unlisted byte. -/
theorem readByte_of_below (b : Buffer) (n : Nat) (h : b.all (fun e => n < e.1) = true) :
    readByte b n = unlistedByte := by
  induction b with
  | nil => rfl
  | cons e rest ih =>
    obtain ⟨k, w⟩ := e
    simp only [List.all_cons, Bool.and_eq_true, decide_eq_true_eq] at h
    have hk : ¬ k = n := by omega
    simp [readByte, hk, ih h.2]

/-- Reading after a write: the byte written, and every other byte as before. -/
theorem readByte_writeByte (b : Buffer) (n m : Nat) (v : Byte) (hb : Buffer.wf b = true) :
    readByte (writeByte b n v) m = if n = m then v else readByte b m := by
  induction b with
  | nil => simpa [writeByte, readByte] using readByte_consCell n m v [] (fun _ => rfl)
  | cons e rest ih =>
    obtain ⟨k, w⟩ := e
    simp only [Buffer.wf, Bool.and_eq_true] at hb
    simp only [writeByte]
    split
    · rename_i hlt
      apply readByte_consCell
      intro hm
      apply readByte_of_below
      simp only [List.all_cons, Bool.and_eq_true, decide_eq_true_eq]
      refine ⟨by omega, ?_⟩
      have := hb.1.2
      simp only [List.all_eq_true, decide_eq_true_eq] at this ⊢
      exact fun x hx => by have := this x hx; omega
    · split
      · rename_i hk
        subst hk
        rw [readByte_consCell _ _ _ _ (fun hm => readByte_of_below _ _ (hm ▸ hb.1.2))]
        by_cases hm : n = m <;> simp [readByte, hm]
      · rename_i hne
        simp only [readByte, ih hb.2]
        by_cases hk : k = m
        · have : ¬ n = m := by omega
          simp [hk, this]
        · simp [hk]

/-- A cell put in front keeps a property of all listed offsets. -/
theorem all_consCell (p : Nat → Bool) (n : Nat) (v : Byte) (rest : Buffer) (hn : p n = true)
    (hb : rest.all (fun e => p e.1) = true) : (consCell n v rest).all (fun e => p e.1) = true := by
  unfold consCell
  split
  · exact hb
  · rw [List.all_cons, hb, hn, Bool.and_self]

/-- Every listed offset of a written buffer is the new one or an old one. -/
theorem all_writeByte (p : Nat → Bool) (b : Buffer) (n : Nat) (v : Byte) (hn : p n = true)
    (hb : b.all (fun e => p e.1) = true) : (writeByte b n v).all (fun e => p e.1) = true := by
  induction b with
  | nil => exact all_consCell p n v [] hn rfl
  | cons e rest ih =>
    obtain ⟨k, w⟩ := e
    have hr := hb
    rw [List.all_cons, Bool.and_eq_true] at hr
    simp only [writeByte]
    split
    · exact all_consCell p n v _ hn hb
    · split
      · exact all_consCell p n v _ hn hr.2
      · rw [List.all_cons, ih hr.2, hr.1, Bool.and_self]

/-- A byte write keeps the canonical form. -/
theorem writeByte_wf (b : Buffer) (n : Nat) (v : Byte) (hb : Buffer.wf b = true) :
    Buffer.wf (writeByte b n v) = true := by
  induction b with
  | nil => unfold writeByte consCell; split <;> simp_all [Buffer.wf]
  | cons e rest ih =>
    obtain ⟨k, w⟩ := e
    have hb' := hb
    simp only [Buffer.wf, Bool.and_eq_true] at hb
    obtain ⟨⟨hw, hall⟩, hr⟩ := hb
    simp only [writeByte]
    split
    · rename_i hlt
      unfold consCell
      split
      · exact hb'
      · rename_i hv
        simp only [Buffer.wf, Bool.and_eq_true, List.all_cons, decide_eq_true_eq, bne_iff_ne]
        refine ⟨⟨hv, hlt, ?_⟩, ⟨by simpa using hw, hall⟩, hr⟩
        simp only [List.all_eq_true, decide_eq_true_eq] at hall ⊢
        exact fun x hx => by have := hall x hx; omega
    · split
      · rename_i hk
        subst hk
        unfold consCell
        split
        · exact hr
        · rename_i hv
          simp only [Buffer.wf, Bool.and_eq_true, bne_iff_ne]
          exact ⟨⟨hv, hall⟩, hr⟩
      · rename_i hk hne
        simp only [Buffer.wf, Bool.and_eq_true]
        exact ⟨⟨hw, all_writeByte (fun x => k < x) rest n v (by simp; omega) hall⟩, ih hr⟩

/-- A tryte write keeps the canonical form. -/
theorem codecWrite_wf (b : Buffer) (n : Nat) (v : Tryte) (hb : Buffer.wf b = true) :
    Buffer.wf (codecWrite b n v) = true :=
  writeByte_wf _ _ _ (writeByte_wf _ _ _ hb)

/-- A buffer of a canonical memory is canonical. -/
theorem Memory.get_wf (m : Memory) (b : BufferName) (h : m.wf = true) : Buffer.wf (m.get b) = true := by
  simp only [Memory.wf, Bool.and_eq_true] at h
  cases b <;> simp_all [Memory.get]

/-- Replacing a buffer by a canonical one keeps the canonical form. -/
theorem Memory.set_wf (m : Memory) (b : BufferName) (buf : Buffer) (h : m.wf = true) (hb : Buffer.wf buf = true) :
    (m.set b buf).wf = true := by
  simp only [Memory.wf, Bool.and_eq_true] at h
  cases b <;> simp_all [Memory.set, Memory.wf]

/-- The buffer that was replaced reads as the new one, every other as before. -/
theorem Memory.get_set (m : Memory) (b q : BufferName) (buf : Buffer) :
    (m.set b buf).get q = if q = b then buf else m.get q := by
  cases b <;> cases q <;> rfl

/-- A store of the core keeps the canonical form. -/
theorem writeCell_wf (s : State) (p : UWord) (t : Tryte) (h : s.mem.wf = true) :
    (s.writeCell p t).mem.wf = true := by
  unfold State.writeCell
  split
  · exact Memory.set_wf _ _ _ h (codecWrite_wf _ _ _ (Memory.get_wf _ _ h))
  · exact h

/-- A write of the host keeps the canonical form. -/
theorem hostWrite_wf (s t : State) (b : BufferName) (n : Nat) (v : Byte) (h : s.mem.wf = true)
    (ht : s.hostWrite b n v = .next t) : t.mem.wf = true := by
  unfold State.hostWrite at ht
  split at ht
  · cases ht
    exact Memory.set_wf _ _ _ h (writeByte_wf _ _ _ (Memory.get_wf _ _ h))
  · cases ht

/-- The reset memory has the canonical form. -/
theorem reset_mem_wf : State.reset.mem.wf = true := rfl

end Sys2Proof.Machine
end

