-- ==== Sys2Proof/Laws/Numeric.lean ====
section
/-!
SUPPORT. The digit recursions behind the value functions and the encoders: what each computes on any pattern. Every fact about
`valB`, `valU`, `valU12`, `encB`, `encU` and `encU12` follows from these.
-/

namespace Sys2Proof

/-- The balanced value is the unbalanced value less the bias of the fields. -/
theorem digitsValB_eq (k p : Nat) : digitsValB k p = (digitsValU k p : Int) - (3 ^ k - 1) / 2 := by
  induction k generalizing p with
  | zero => simp [digitsValB, digitsValU]
  | succ k ih =>
    have h3 : (3 : Int) ^ (k + 1) = 3 * 3 ^ k := by ring
    have hodd : (3 : Int) ^ k % 2 = 1 := by
      clear ih h3
      induction k with
      | zero => rfl
      | succ k ih => rw [pow_succ]; omega
    simp only [digitsValB, digitsValU, ih, h3]
    push_cast
    omega

/-- An encoding has only codes 0, 1 and 2. -/
theorem fieldsValid_digitsEnc (k v : Nat) : fieldsValid k (digitsEnc k v) = true := by
  induction k generalizing v with
  | zero => rfl
  | succ k ih =>
    have h4 : (v % 3 + 4 * digitsEnc k (v / 3)) % 4 = v % 3 := by omega
    have h5 : (v % 3 + 4 * digitsEnc k (v / 3)) / 4 = digitsEnc k (v / 3) := by omega
    have h6 : v % 3 ≠ 3 := by omega
    simp [fieldsValid, digitsEnc, h4, h5, h6, ih]

/-- An encoding fits its fields. -/
theorem digitsEnc_lt (k v : Nat) : digitsEnc k v < 4 ^ k := by
  induction k generalizing v with
  | zero => simp [digitsEnc]
  | succ k ih => have := ih (v / 3); simp only [digitsEnc, pow_succ]; omega

/-- Decoding an encoding gives the value modulo the range. -/
theorem digitsValU_digitsEnc (k v : Nat) : digitsValU k (digitsEnc k v) = v % 3 ^ k := by
  induction k generalizing v with
  | zero => simp [digitsValU, Nat.mod_one]
  | succ k ih =>
    have h4 : (v % 3 + 4 * digitsEnc k (v / 3)) % 4 = v % 3 := by omega
    have h5 : (v % 3 + 4 * digitsEnc k (v / 3)) / 4 = digitsEnc k (v / 3) := by omega
    simp only [digitsValU, digitsEnc, h4, h5, ih, pow_succ']
    rw [Nat.mod_mul]

/-- A valid pattern's value is below the range. -/
theorem digitsValU_lt (k p : Nat) (h : fieldsValid k p = true) : digitsValU k p < 3 ^ k := by
  induction k generalizing p with
  | zero => simp [digitsValU]
  | succ k ih =>
    simp only [fieldsValid, Bool.and_eq_true, bne_iff_ne] at h
    have := ih _ h.2
    simp only [digitsValU, pow_succ]
    omega

/-- Encoding the value of a valid pattern gives the pattern back. -/
theorem digitsEnc_digitsValU (k p : Nat) (h : fieldsValid k p = true) (hp : p < 4 ^ k) :
    digitsEnc k (digitsValU k p) = p := by
  induction k generalizing p with
  | zero => simp [digitsEnc] at *; omega
  | succ k ih =>
    simp only [fieldsValid, Bool.and_eq_true, bne_iff_ne] at h
    have h3 : (p % 4 + 3 * digitsValU k (p / 4)) % 3 = p % 4 := by omega
    have h4 : (p % 4 + 3 * digitsValU k (p / 4)) / 3 = digitsValU k (p / 4) := by omega
    simp only [digitsEnc, digitsValU, h3, h4, ih _ h.2 (by rw [pow_succ] at hp; omega)]
    omega

/-- A tryte made of a packed number below 4096 holds that number. -/
theorem toNat_ofNat_digitsEnc6 (v : Nat) : (BitVec.ofNat 12 (digitsEnc 6 v)).toNat = digitsEnc 6 v := by
  have := digitsEnc_lt 6 v
  rw [BitVec.toNat_ofNat, Nat.mod_eq_of_lt (by simpa using this)]

/-- A word made of a packed number below 2^24 holds that number. -/
theorem toNat_ofNat_digitsEnc12 (v : Nat) : (BitVec.ofNat 24 (digitsEnc 12 v)).toNat = digitsEnc 12 v := by
  have := digitsEnc_lt 12 v
  rw [BitVec.toNat_ofNat, Nat.mod_eq_of_lt (by simpa using this)]

/-- Every encoded Tryte is a valid pattern. -/
@[simp] theorem validTryte_encB (n : Int) : validTryte (encB n) = true := by
  simp only [validTryte, encB, toNat_ofNat_digitsEnc6, fieldsValid_digitsEnc]

/-- Every encoded UTryte is a valid pattern. -/
@[simp] theorem validTryte_encU (n : Int) : validTryte (encU n) = true := by
  simp only [validTryte, encU, toNat_ofNat_digitsEnc6, fieldsValid_digitsEnc]

/-- Every encoded UWord is a valid pattern. -/
@[simp] theorem validWord_encU12 (n : Int) : validWord (encU12 n) = true := by
  simp only [validWord, encU12, toNat_ofNat_digitsEnc12, fieldsValid_digitsEnc]

/-- The low half of a joined word. -/
@[simp] theorem loTryte_wordOf (lo hi : Tryte) : loTryte (wordOf lo hi) = lo := by
  apply BitVec.eq_of_toNat_eq
  have h1 := lo.isLt
  have h2 := hi.isLt
  simp only [loTryte, wordOf, BitVec.extractLsb'_toNat, BitVec.toNat_append, Nat.shiftRight_zero]
  rw [Nat.shiftLeft_eq, Nat.mul_comm, ← Nat.two_pow_add_eq_or_of_lt h1]
  omega

/-- The high half of a joined word. -/
@[simp] theorem hiTryte_wordOf (lo hi : Tryte) : hiTryte (wordOf lo hi) = hi := by
  apply BitVec.eq_of_toNat_eq
  have h1 := lo.isLt
  have h2 := hi.isLt
  simp only [hiTryte, wordOf, BitVec.extractLsb'_toNat, BitVec.toNat_append]
  rw [Nat.shiftLeft_eq, Nat.mul_comm, ← Nat.two_pow_add_eq_or_of_lt h1, Nat.shiftRight_eq_div_pow]
  omega

/-- A word is its two halves joined. -/
@[simp] theorem wordOf_halves (w : UWord) : wordOf (loTryte w) (hiTryte w) = w := by
  apply BitVec.eq_of_toNat_eq
  have h := w.isLt
  have hl : (loTryte w).toNat = w.toNat % 4096 := by simp [loTryte, BitVec.extractLsb'_toNat]
  have hh : (hiTryte w).toNat = w.toNat / 4096 % 4096 := by
    simp [hiTryte, BitVec.extractLsb'_toNat, Nat.shiftRight_eq_div_pow]
  have h1 := (loTryte w).isLt
  simp only [wordOf, BitVec.toNat_append]
  rw [Nat.shiftLeft_eq, Nat.mul_comm, ← Nat.two_pow_add_eq_or_of_lt h1, hl, hh]
  omega

end Sys2Proof
end

