-- ==== Sys2Proof/Laws/State.lean ====
section
/-!
SUPPORT. The fields of a state after each named update: one lemma per field per update, so that no later proof unfolds a
record update.
-/

namespace Sys2Proof.Machine

variable (s : State)

@[simp] theorem takeTryte_cfg (t : Tryte) : (s.takeTryte t).cfg = s.cfg := by dsimp only [State.takeTryte]
@[simp] theorem takeTryte_a (t : Tryte) : (s.takeTryte t).a = s.a := by dsimp only [State.takeTryte]
@[simp] theorem takeTryte_c (t : Tryte) : (s.takeTryte t).c = s.c := by dsimp only [State.takeTryte]
@[simp] theorem takeTryte_d (t : Tryte) : (s.takeTryte t).d = s.d := by dsimp only [State.takeTryte]
@[simp] theorem takeTryte_x (t : Tryte) : (s.takeTryte t).x = s.x := by dsimp only [State.takeTryte]
@[simp] theorem takeTryte_y (t : Tryte) : (s.takeTryte t).y = s.y := by dsimp only [State.takeTryte]
@[simp] theorem takeTryte_f (t : Tryte) : (s.takeTryte t).f = s.f := by dsimp only [State.takeTryte]
@[simp] theorem takeTryte_pc (t : Tryte) : (s.takeTryte t).pc = incW s.pc := by dsimp only [State.takeTryte]
@[simp] theorem takeTryte_sp (t : Tryte) : (s.takeTryte t).sp = s.sp := by dsimp only [State.takeTryte]
@[simp] theorem takeTryte_db (t : Tryte) : (s.takeTryte t).db = t := by dsimp only [State.takeTryte]
@[simp] theorem takeTryte_al (t : Tryte) : (s.takeTryte t).al = s.al := by dsimp only [State.takeTryte]
@[simp] theorem takeTryte_phase (t : Tryte) : (s.takeTryte t).phase = s.phase := by dsimp only [State.takeTryte]
@[simp] theorem takeTryte_mem (t : Tryte) : (s.takeTryte t).mem = s.mem := by dsimp only [State.takeTryte]

@[simp] theorem takeHigh_cfg (t : Tryte) : (s.takeHigh t).cfg = s.cfg := by dsimp only [State.takeHigh]
@[simp] theorem takeHigh_a (t : Tryte) : (s.takeHigh t).a = s.a := by dsimp only [State.takeHigh]
@[simp] theorem takeHigh_c (t : Tryte) : (s.takeHigh t).c = s.c := by dsimp only [State.takeHigh]
@[simp] theorem takeHigh_d (t : Tryte) : (s.takeHigh t).d = s.d := by dsimp only [State.takeHigh]
@[simp] theorem takeHigh_x (t : Tryte) : (s.takeHigh t).x = s.x := by dsimp only [State.takeHigh]
@[simp] theorem takeHigh_y (t : Tryte) : (s.takeHigh t).y = s.y := by dsimp only [State.takeHigh]
@[simp] theorem takeHigh_f (t : Tryte) : (s.takeHigh t).f = s.f := by dsimp only [State.takeHigh]
@[simp] theorem takeHigh_pc (t : Tryte) : (s.takeHigh t).pc = incW s.pc := by dsimp only [State.takeHigh]
@[simp] theorem takeHigh_sp (t : Tryte) : (s.takeHigh t).sp = s.sp := by dsimp only [State.takeHigh]
@[simp] theorem takeHigh_db (t : Tryte) : (s.takeHigh t).db = t := by dsimp only [State.takeHigh]
@[simp] theorem takeHigh_al (t : Tryte) : (s.takeHigh t).al = wordOf s.db (hiTryte s.al) := by dsimp only [State.takeHigh]
@[simp] theorem takeHigh_phase (t : Tryte) : (s.takeHigh t).phase = s.phase := by dsimp only [State.takeHigh]
@[simp] theorem takeHigh_mem (t : Tryte) : (s.takeHigh t).mem = s.mem := by dsimp only [State.takeHigh]

@[simp] theorem hiset_cfg : (s.hiset).cfg = s.cfg := by dsimp only [State.hiset]
@[simp] theorem hiset_a : (s.hiset).a = s.a := by dsimp only [State.hiset]
@[simp] theorem hiset_c : (s.hiset).c = s.c := by dsimp only [State.hiset]
@[simp] theorem hiset_d : (s.hiset).d = s.d := by dsimp only [State.hiset]
@[simp] theorem hiset_x : (s.hiset).x = s.x := by dsimp only [State.hiset]
@[simp] theorem hiset_y : (s.hiset).y = s.y := by dsimp only [State.hiset]
@[simp] theorem hiset_f : (s.hiset).f = s.f := by dsimp only [State.hiset]
@[simp] theorem hiset_pc : (s.hiset).pc = s.pc := by dsimp only [State.hiset]
@[simp] theorem hiset_sp : (s.hiset).sp = s.sp := by dsimp only [State.hiset]
@[simp] theorem hiset_db : (s.hiset).db = s.db := by dsimp only [State.hiset]
@[simp] theorem hiset_al : (s.hiset).al = wordOf (loTryte s.al) s.db := by dsimp only [State.hiset]
@[simp] theorem hiset_phase : (s.hiset).phase = s.phase := by dsimp only [State.hiset]
@[simp] theorem hiset_mem : (s.hiset).mem = s.mem := by dsimp only [State.hiset]

@[simp] theorem indexAdd_cfg (r : Reg) : (s.indexAdd r).cfg = s.cfg := by dsimp only [State.indexAdd]
@[simp] theorem indexAdd_a (r : Reg) : (s.indexAdd r).a = s.a := by dsimp only [State.indexAdd]
@[simp] theorem indexAdd_c (r : Reg) : (s.indexAdd r).c = s.c := by dsimp only [State.indexAdd]
@[simp] theorem indexAdd_d (r : Reg) : (s.indexAdd r).d = s.d := by dsimp only [State.indexAdd]
@[simp] theorem indexAdd_x (r : Reg) : (s.indexAdd r).x = s.x := by dsimp only [State.indexAdd]
@[simp] theorem indexAdd_y (r : Reg) : (s.indexAdd r).y = s.y := by dsimp only [State.indexAdd]
@[simp] theorem indexAdd_f (r : Reg) : (s.indexAdd r).f = s.f := by dsimp only [State.indexAdd]
@[simp] theorem indexAdd_pc (r : Reg) : (s.indexAdd r).pc = s.pc := by dsimp only [State.indexAdd]
@[simp] theorem indexAdd_sp (r : Reg) : (s.indexAdd r).sp = s.sp := by dsimp only [State.indexAdd]
@[simp] theorem indexAdd_db (r : Reg) : (s.indexAdd r).db = s.db := by dsimp only [State.indexAdd]
@[simp] theorem indexAdd_al (r : Reg) : (s.indexAdd r).al = indexed s.al (s.reg r) := by dsimp only [State.indexAdd]
@[simp] theorem indexAdd_phase (r : Reg) : (s.indexAdd r).phase = s.phase := by dsimp only [State.indexAdd]
@[simp] theorem indexAdd_mem (r : Reg) : (s.indexAdd r).mem = s.mem := by dsimp only [State.indexAdd]

@[simp] theorem jumpToAl_cfg : (s.jumpToAl).cfg = s.cfg := by dsimp only [State.jumpToAl]
@[simp] theorem jumpToAl_a : (s.jumpToAl).a = s.a := by dsimp only [State.jumpToAl]
@[simp] theorem jumpToAl_c : (s.jumpToAl).c = s.c := by dsimp only [State.jumpToAl]
@[simp] theorem jumpToAl_d : (s.jumpToAl).d = s.d := by dsimp only [State.jumpToAl]
@[simp] theorem jumpToAl_x : (s.jumpToAl).x = s.x := by dsimp only [State.jumpToAl]
@[simp] theorem jumpToAl_y : (s.jumpToAl).y = s.y := by dsimp only [State.jumpToAl]
@[simp] theorem jumpToAl_f : (s.jumpToAl).f = s.f := by dsimp only [State.jumpToAl]
@[simp] theorem jumpToAl_pc : (s.jumpToAl).pc = s.al := by dsimp only [State.jumpToAl]
@[simp] theorem jumpToAl_sp : (s.jumpToAl).sp = s.sp := by dsimp only [State.jumpToAl]
@[simp] theorem jumpToAl_db : (s.jumpToAl).db = s.db := by dsimp only [State.jumpToAl]
@[simp] theorem jumpToAl_al : (s.jumpToAl).al = s.al := by dsimp only [State.jumpToAl]
@[simp] theorem jumpToAl_phase : (s.jumpToAl).phase = s.phase := by dsimp only [State.jumpToAl]
@[simp] theorem jumpToAl_mem : (s.jumpToAl).mem = s.mem := by dsimp only [State.jumpToAl]

@[simp] theorem endInstr_cfg : (s.endInstr).cfg = s.cfg := by dsimp only [State.endInstr]
@[simp] theorem endInstr_a : (s.endInstr).a = s.a := by dsimp only [State.endInstr]
@[simp] theorem endInstr_c : (s.endInstr).c = s.c := by dsimp only [State.endInstr]
@[simp] theorem endInstr_d : (s.endInstr).d = s.d := by dsimp only [State.endInstr]
@[simp] theorem endInstr_x : (s.endInstr).x = s.x := by dsimp only [State.endInstr]
@[simp] theorem endInstr_y : (s.endInstr).y = s.y := by dsimp only [State.endInstr]
@[simp] theorem endInstr_f : (s.endInstr).f = s.f := by dsimp only [State.endInstr]
@[simp] theorem endInstr_pc : (s.endInstr).pc = s.pc := by dsimp only [State.endInstr]
@[simp] theorem endInstr_sp : (s.endInstr).sp = s.sp := by dsimp only [State.endInstr]
@[simp] theorem endInstr_db : (s.endInstr).db = s.db := by dsimp only [State.endInstr]
@[simp] theorem endInstr_al : (s.endInstr).al = s.al := by dsimp only [State.endInstr]
@[simp] theorem endInstr_phase : (s.endInstr).phase = .fetch := by dsimp only [State.endInstr]
@[simp] theorem endInstr_mem : (s.endInstr).mem = s.mem := by dsimp only [State.endInstr]

@[simp] theorem spLowFromX_cfg : (s.spLowFromX).cfg = s.cfg := by dsimp only [State.spLowFromX]
@[simp] theorem spLowFromX_a : (s.spLowFromX).a = s.a := by dsimp only [State.spLowFromX]
@[simp] theorem spLowFromX_c : (s.spLowFromX).c = s.c := by dsimp only [State.spLowFromX]
@[simp] theorem spLowFromX_d : (s.spLowFromX).d = s.d := by dsimp only [State.spLowFromX]
@[simp] theorem spLowFromX_x : (s.spLowFromX).x = s.x := by dsimp only [State.spLowFromX]
@[simp] theorem spLowFromX_y : (s.spLowFromX).y = s.y := by dsimp only [State.spLowFromX]
@[simp] theorem spLowFromX_f : (s.spLowFromX).f = s.f := by dsimp only [State.spLowFromX]
@[simp] theorem spLowFromX_pc : (s.spLowFromX).pc = s.pc := by dsimp only [State.spLowFromX]
@[simp] theorem spLowFromX_sp : (s.spLowFromX).sp = wordOf (toUTryte s.x) (hiTryte s.sp) := by dsimp only [State.spLowFromX]
@[simp] theorem spLowFromX_db : (s.spLowFromX).db = s.db := by dsimp only [State.spLowFromX]
@[simp] theorem spLowFromX_al : (s.spLowFromX).al = s.al := by dsimp only [State.spLowFromX]
@[simp] theorem spLowFromX_phase : (s.spLowFromX).phase = s.phase := by dsimp only [State.spLowFromX]
@[simp] theorem spLowFromX_mem : (s.spLowFromX).mem = s.mem := by dsimp only [State.spLowFromX]

@[simp] theorem spHighFromY_cfg : (s.spHighFromY).cfg = s.cfg := by dsimp only [State.spHighFromY]
@[simp] theorem spHighFromY_a : (s.spHighFromY).a = s.a := by dsimp only [State.spHighFromY]
@[simp] theorem spHighFromY_c : (s.spHighFromY).c = s.c := by dsimp only [State.spHighFromY]
@[simp] theorem spHighFromY_d : (s.spHighFromY).d = s.d := by dsimp only [State.spHighFromY]
@[simp] theorem spHighFromY_x : (s.spHighFromY).x = s.x := by dsimp only [State.spHighFromY]
@[simp] theorem spHighFromY_y : (s.spHighFromY).y = s.y := by dsimp only [State.spHighFromY]
@[simp] theorem spHighFromY_f : (s.spHighFromY).f = s.f := by dsimp only [State.spHighFromY]
@[simp] theorem spHighFromY_pc : (s.spHighFromY).pc = s.pc := by dsimp only [State.spHighFromY]
@[simp] theorem spHighFromY_sp : (s.spHighFromY).sp = wordOf (loTryte s.sp) (toUTryte s.y) := by dsimp only [State.spHighFromY]
@[simp] theorem spHighFromY_db : (s.spHighFromY).db = s.db := by dsimp only [State.spHighFromY]
@[simp] theorem spHighFromY_al : (s.spHighFromY).al = s.al := by dsimp only [State.spHighFromY]
@[simp] theorem spHighFromY_phase : (s.spHighFromY).phase = s.phase := by dsimp only [State.spHighFromY]
@[simp] theorem spHighFromY_mem : (s.spHighFromY).mem = s.mem := by dsimp only [State.spHighFromY]

@[simp] theorem xFromSpLow_cfg : (s.xFromSpLow).cfg = s.cfg := by dsimp only [State.xFromSpLow]
@[simp] theorem xFromSpLow_a : (s.xFromSpLow).a = s.a := by dsimp only [State.xFromSpLow]
@[simp] theorem xFromSpLow_c : (s.xFromSpLow).c = s.c := by dsimp only [State.xFromSpLow]
@[simp] theorem xFromSpLow_d : (s.xFromSpLow).d = s.d := by dsimp only [State.xFromSpLow]
@[simp] theorem xFromSpLow_x : (s.xFromSpLow).x = toTryte (loTryte s.sp) := by dsimp only [State.xFromSpLow]
@[simp] theorem xFromSpLow_y : (s.xFromSpLow).y = s.y := by dsimp only [State.xFromSpLow]
@[simp] theorem xFromSpLow_f : (s.xFromSpLow).f = s.f := by dsimp only [State.xFromSpLow]
@[simp] theorem xFromSpLow_pc : (s.xFromSpLow).pc = s.pc := by dsimp only [State.xFromSpLow]
@[simp] theorem xFromSpLow_sp : (s.xFromSpLow).sp = s.sp := by dsimp only [State.xFromSpLow]
@[simp] theorem xFromSpLow_db : (s.xFromSpLow).db = s.db := by dsimp only [State.xFromSpLow]
@[simp] theorem xFromSpLow_al : (s.xFromSpLow).al = s.al := by dsimp only [State.xFromSpLow]
@[simp] theorem xFromSpLow_phase : (s.xFromSpLow).phase = s.phase := by dsimp only [State.xFromSpLow]
@[simp] theorem xFromSpLow_mem : (s.xFromSpLow).mem = s.mem := by dsimp only [State.xFromSpLow]

@[simp] theorem yFromSpHigh_cfg : (s.yFromSpHigh).cfg = s.cfg := by dsimp only [State.yFromSpHigh]
@[simp] theorem yFromSpHigh_a : (s.yFromSpHigh).a = s.a := by dsimp only [State.yFromSpHigh]
@[simp] theorem yFromSpHigh_c : (s.yFromSpHigh).c = s.c := by dsimp only [State.yFromSpHigh]
@[simp] theorem yFromSpHigh_d : (s.yFromSpHigh).d = s.d := by dsimp only [State.yFromSpHigh]
@[simp] theorem yFromSpHigh_x : (s.yFromSpHigh).x = s.x := by dsimp only [State.yFromSpHigh]
@[simp] theorem yFromSpHigh_y : (s.yFromSpHigh).y = toTryte (hiTryte s.sp) := by dsimp only [State.yFromSpHigh]
@[simp] theorem yFromSpHigh_f : (s.yFromSpHigh).f = s.f := by dsimp only [State.yFromSpHigh]
@[simp] theorem yFromSpHigh_pc : (s.yFromSpHigh).pc = s.pc := by dsimp only [State.yFromSpHigh]
@[simp] theorem yFromSpHigh_sp : (s.yFromSpHigh).sp = s.sp := by dsimp only [State.yFromSpHigh]
@[simp] theorem yFromSpHigh_db : (s.yFromSpHigh).db = s.db := by dsimp only [State.yFromSpHigh]
@[simp] theorem yFromSpHigh_al : (s.yFromSpHigh).al = s.al := by dsimp only [State.yFromSpHigh]
@[simp] theorem yFromSpHigh_phase : (s.yFromSpHigh).phase = s.phase := by dsimp only [State.yFromSpHigh]
@[simp] theorem yFromSpHigh_mem : (s.yFromSpHigh).mem = s.mem := by dsimp only [State.yFromSpHigh]

@[simp] theorem addOperand_cfg (src : AddSource) (k : AddKind) (m : Tryte) : (s.addOperand src k m).cfg = s.cfg := by dsimp only [State.addOperand]
@[simp] theorem addOperand_a (src : AddSource) (k : AddKind) (m : Tryte) : (s.addOperand src k m).a = (addByMode s.f s.a m (addIncrement s.cfg.adddbDelta s.f.cb src k)).1 := by dsimp only [State.addOperand]
@[simp] theorem addOperand_c (src : AddSource) (k : AddKind) (m : Tryte) : (s.addOperand src k m).c = s.c := by dsimp only [State.addOperand]
@[simp] theorem addOperand_d (src : AddSource) (k : AddKind) (m : Tryte) : (s.addOperand src k m).d = s.d := by dsimp only [State.addOperand]
@[simp] theorem addOperand_x (src : AddSource) (k : AddKind) (m : Tryte) : (s.addOperand src k m).x = s.x := by dsimp only [State.addOperand]
@[simp] theorem addOperand_y (src : AddSource) (k : AddKind) (m : Tryte) : (s.addOperand src k m).y = s.y := by dsimp only [State.addOperand]
@[simp] theorem addOperand_f (src : AddSource) (k : AddKind) (m : Tryte) : (s.addOperand src k m).f = (addByMode s.f s.a m (addIncrement s.cfg.adddbDelta s.f.cb src k)).2 := by dsimp only [State.addOperand]
@[simp] theorem addOperand_pc (src : AddSource) (k : AddKind) (m : Tryte) : (s.addOperand src k m).pc = s.pc := by dsimp only [State.addOperand]
@[simp] theorem addOperand_sp (src : AddSource) (k : AddKind) (m : Tryte) : (s.addOperand src k m).sp = s.sp := by dsimp only [State.addOperand]
@[simp] theorem addOperand_db (src : AddSource) (k : AddKind) (m : Tryte) : (s.addOperand src k m).db = s.db := by dsimp only [State.addOperand]
@[simp] theorem addOperand_al (src : AddSource) (k : AddKind) (m : Tryte) : (s.addOperand src k m).al = s.al := by dsimp only [State.addOperand]
@[simp] theorem addOperand_phase (src : AddSource) (k : AddKind) (m : Tryte) : (s.addOperand src k m).phase = s.phase := by dsimp only [State.addOperand]
@[simp] theorem addOperand_mem (src : AddSource) (k : AddKind) (m : Tryte) : (s.addOperand src k m).mem = s.mem := by dsimp only [State.addOperand]

@[simp] theorem addRegD_cfg (k : AddKind) : (s.addRegD k).cfg = s.cfg := by dsimp only [State.addRegD, State.addOperand]
@[simp] theorem addRegD_a (k : AddKind) : (s.addRegD k).a = (addByMode s.f s.a (toBus s.f.bu s.d) (addIncrement s.cfg.adddbDelta s.f.cb .regD k)).1 := by dsimp only [State.addRegD, State.addOperand]
@[simp] theorem addRegD_c (k : AddKind) : (s.addRegD k).c = s.c := by dsimp only [State.addRegD, State.addOperand]
@[simp] theorem addRegD_d (k : AddKind) : (s.addRegD k).d = s.d := by dsimp only [State.addRegD, State.addOperand]
@[simp] theorem addRegD_x (k : AddKind) : (s.addRegD k).x = s.x := by dsimp only [State.addRegD, State.addOperand]
@[simp] theorem addRegD_y (k : AddKind) : (s.addRegD k).y = s.y := by dsimp only [State.addRegD, State.addOperand]
@[simp] theorem addRegD_f (k : AddKind) : (s.addRegD k).f = (addByMode s.f s.a (toBus s.f.bu s.d) (addIncrement s.cfg.adddbDelta s.f.cb .regD k)).2 := by dsimp only [State.addRegD, State.addOperand]
@[simp] theorem addRegD_pc (k : AddKind) : (s.addRegD k).pc = s.pc := by dsimp only [State.addRegD, State.addOperand]
@[simp] theorem addRegD_sp (k : AddKind) : (s.addRegD k).sp = s.sp := by dsimp only [State.addRegD, State.addOperand]
@[simp] theorem addRegD_db (k : AddKind) : (s.addRegD k).db = s.db := by dsimp only [State.addRegD, State.addOperand]
@[simp] theorem addRegD_al (k : AddKind) : (s.addRegD k).al = s.al := by dsimp only [State.addRegD, State.addOperand]
@[simp] theorem addRegD_phase (k : AddKind) : (s.addRegD k).phase = s.phase := by dsimp only [State.addRegD, State.addOperand]
@[simp] theorem addRegD_mem (k : AddKind) : (s.addRegD k).mem = s.mem := by dsimp only [State.addRegD, State.addOperand]

@[simp] theorem setFlag_cfg (sel : FlagSel) (v : Tryte) : (s.setFlag sel v).cfg = s.cfg := by dsimp only [State.setFlag]
@[simp] theorem setFlag_a (sel : FlagSel) (v : Tryte) : (s.setFlag sel v).a = s.a := by dsimp only [State.setFlag]
@[simp] theorem setFlag_c (sel : FlagSel) (v : Tryte) : (s.setFlag sel v).c = s.c := by dsimp only [State.setFlag]
@[simp] theorem setFlag_d (sel : FlagSel) (v : Tryte) : (s.setFlag sel v).d = s.d := by dsimp only [State.setFlag]
@[simp] theorem setFlag_x (sel : FlagSel) (v : Tryte) : (s.setFlag sel v).x = s.x := by dsimp only [State.setFlag]
@[simp] theorem setFlag_y (sel : FlagSel) (v : Tryte) : (s.setFlag sel v).y = s.y := by dsimp only [State.setFlag]
@[simp] theorem setFlag_f (sel : FlagSel) (v : Tryte) : (s.setFlag sel v).f = s.f.setBy s.cfg.flagToggle sel (valB v) := by dsimp only [State.setFlag]
@[simp] theorem setFlag_pc (sel : FlagSel) (v : Tryte) : (s.setFlag sel v).pc = s.pc := by dsimp only [State.setFlag]
@[simp] theorem setFlag_sp (sel : FlagSel) (v : Tryte) : (s.setFlag sel v).sp = s.sp := by dsimp only [State.setFlag]
@[simp] theorem setFlag_db (sel : FlagSel) (v : Tryte) : (s.setFlag sel v).db = s.db := by dsimp only [State.setFlag]
@[simp] theorem setFlag_al (sel : FlagSel) (v : Tryte) : (s.setFlag sel v).al = s.al := by dsimp only [State.setFlag]
@[simp] theorem setFlag_phase (sel : FlagSel) (v : Tryte) : (s.setFlag sel v).phase = s.phase := by dsimp only [State.setFlag]
@[simp] theorem setFlag_mem (sel : FlagSel) (v : Tryte) : (s.setFlag sel v).mem = s.mem := by dsimp only [State.setFlag]

@[simp] theorem afterFetch_cfg (t : Tryte) : (s.afterFetch t).cfg = s.cfg := by dsimp only [State.afterFetch, State.takeTryte]
@[simp] theorem afterFetch_a (t : Tryte) : (s.afterFetch t).a = s.a := by dsimp only [State.afterFetch, State.takeTryte]
@[simp] theorem afterFetch_c (t : Tryte) : (s.afterFetch t).c = s.c := by dsimp only [State.afterFetch, State.takeTryte]
@[simp] theorem afterFetch_d (t : Tryte) : (s.afterFetch t).d = s.d := by dsimp only [State.afterFetch, State.takeTryte]
@[simp] theorem afterFetch_x (t : Tryte) : (s.afterFetch t).x = s.x := by dsimp only [State.afterFetch, State.takeTryte]
@[simp] theorem afterFetch_y (t : Tryte) : (s.afterFetch t).y = s.y := by dsimp only [State.afterFetch, State.takeTryte]
@[simp] theorem afterFetch_f (t : Tryte) : (s.afterFetch t).f = s.f := by dsimp only [State.afterFetch, State.takeTryte]
@[simp] theorem afterFetch_pc (t : Tryte) : (s.afterFetch t).pc = incW s.pc := by dsimp only [State.afterFetch, State.takeTryte]
@[simp] theorem afterFetch_sp (t : Tryte) : (s.afterFetch t).sp = s.sp := by dsimp only [State.afterFetch, State.takeTryte]
@[simp] theorem afterFetch_db (t : Tryte) : (s.afterFetch t).db = t := by dsimp only [State.afterFetch, State.takeTryte]
@[simp] theorem afterFetch_al (t : Tryte) : (s.afterFetch t).al = s.al := by dsimp only [State.afterFetch, State.takeTryte]
@[simp] theorem afterFetch_phase (t : Tryte) : (s.afterFetch t).phase = .execute ⟨opOf s.cfg.opmap (valU t), 1⟩ := by dsimp only [State.afterFetch, State.takeTryte]
@[simp] theorem afterFetch_mem (t : Tryte) : (s.afterFetch t).mem = s.mem := by dsimp only [State.afterFetch, State.takeTryte]

@[simp] theorem setReg_cfg (r : Reg) (v : Tryte) : (s.setReg r v).cfg = s.cfg := by cases r <;> rfl
@[simp] theorem setReg_f (r : Reg) (v : Tryte) : (s.setReg r v).f = s.f := by cases r <;> rfl
@[simp] theorem setReg_pc (r : Reg) (v : Tryte) : (s.setReg r v).pc = s.pc := by cases r <;> rfl
@[simp] theorem setReg_sp (r : Reg) (v : Tryte) : (s.setReg r v).sp = s.sp := by cases r <;> rfl
@[simp] theorem setReg_db (r : Reg) (v : Tryte) : (s.setReg r v).db = s.db := by cases r <;> rfl
@[simp] theorem setReg_al (r : Reg) (v : Tryte) : (s.setReg r v).al = s.al := by cases r <;> rfl
@[simp] theorem setReg_phase (r : Reg) (v : Tryte) : (s.setReg r v).phase = s.phase := by cases r <;> rfl
@[simp] theorem setReg_mem (r : Reg) (v : Tryte) : (s.setReg r v).mem = s.mem := by cases r <;> rfl

/-- Reading a register after writing one. -/
@[simp] theorem setReg_reg (r q : Reg) (v : Tryte) :
    (s.setReg r v).reg q = if q = r then v else s.reg q := by cases r <;> cases q <;> rfl

@[simp] theorem setReg_of_a (v : Tryte) : s.setReg .a v = { s with a := v } := rfl
@[simp] theorem reg_of_a : s.reg .a = s.a := rfl
@[simp] theorem setReg_of_c (v : Tryte) : s.setReg .c v = { s with c := v } := rfl
@[simp] theorem reg_of_c : s.reg .c = s.c := rfl
@[simp] theorem setReg_of_d (v : Tryte) : s.setReg .d v = { s with d := v } := rfl
@[simp] theorem reg_of_d : s.reg .d = s.d := rfl
@[simp] theorem setReg_of_x (v : Tryte) : s.setReg .x v = { s with x := v } := rfl
@[simp] theorem reg_of_x : s.reg .x = s.x := rfl
@[simp] theorem setReg_of_y (v : Tryte) : s.setReg .y v = { s with y := v } := rfl
@[simp] theorem reg_of_y : s.reg .y = s.y := rfl

@[simp] theorem loadDatum_cfg (r : Reg) (b : Tryte) : (s.loadDatum r b).cfg = s.cfg := by cases r <;> simp only [State.loadDatum, State.setReg]
@[simp] theorem loadDatum_f (r : Reg) (b : Tryte) : (s.loadDatum r b).f = { s.f with s := signM s.f.bu b } := by cases r <;> simp only [State.loadDatum, State.setReg]
@[simp] theorem loadDatum_pc (r : Reg) (b : Tryte) : (s.loadDatum r b).pc = s.pc := by cases r <;> simp only [State.loadDatum, State.setReg]
@[simp] theorem loadDatum_sp (r : Reg) (b : Tryte) : (s.loadDatum r b).sp = s.sp := by cases r <;> simp only [State.loadDatum, State.setReg]
@[simp] theorem loadDatum_db (r : Reg) (b : Tryte) : (s.loadDatum r b).db = b := by cases r <;> simp only [State.loadDatum, State.setReg]
@[simp] theorem loadDatum_al (r : Reg) (b : Tryte) : (s.loadDatum r b).al = s.al := by cases r <;> simp only [State.loadDatum, State.setReg]
@[simp] theorem loadDatum_phase (r : Reg) (b : Tryte) : (s.loadDatum r b).phase = s.phase := by cases r <;> simp only [State.loadDatum, State.setReg]
@[simp] theorem loadDatum_mem (r : Reg) (b : Tryte) : (s.loadDatum r b).mem = s.mem := by cases r <;> simp only [State.loadDatum, State.setReg]
@[simp] theorem loadDatum_reg (r q : Reg) (b : Tryte) :
    (s.loadDatum r b).reg q = if q = r then fromBus s.f.bu b else s.reg q := by
  unfold State.loadDatum; rw [setReg_reg]; split <;> cases q <;> rfl

@[simp] theorem copyReg_cfg (t : Xfer) : (s.copyReg t).cfg = s.cfg := by simp only [State.copyReg, setReg_cfg]
@[simp] theorem copyReg_f (t : Xfer) : (s.copyReg t).f = s.f := by simp only [State.copyReg, setReg_f]
@[simp] theorem copyReg_pc (t : Xfer) : (s.copyReg t).pc = s.pc := by simp only [State.copyReg, setReg_pc]
@[simp] theorem copyReg_sp (t : Xfer) : (s.copyReg t).sp = s.sp := by simp only [State.copyReg, setReg_sp]
@[simp] theorem copyReg_db (t : Xfer) : (s.copyReg t).db = s.db := by simp only [State.copyReg, setReg_db]
@[simp] theorem copyReg_al (t : Xfer) : (s.copyReg t).al = s.al := by simp only [State.copyReg, setReg_al]
@[simp] theorem copyReg_phase (t : Xfer) : (s.copyReg t).phase = s.phase := by simp only [State.copyReg, setReg_phase]
@[simp] theorem copyReg_mem (t : Xfer) : (s.copyReg t).mem = s.mem := by simp only [State.copyReg, setReg_mem]

@[simp] theorem writeCell_cfg (p : UWord) (t : Tryte) : (s.writeCell p t).cfg = s.cfg := by
  simp only [State.writeCell]; split <;> rfl
@[simp] theorem writeCell_a (p : UWord) (t : Tryte) : (s.writeCell p t).a = s.a := by
  simp only [State.writeCell]; split <;> rfl
@[simp] theorem writeCell_c (p : UWord) (t : Tryte) : (s.writeCell p t).c = s.c := by
  simp only [State.writeCell]; split <;> rfl
@[simp] theorem writeCell_d (p : UWord) (t : Tryte) : (s.writeCell p t).d = s.d := by
  simp only [State.writeCell]; split <;> rfl
@[simp] theorem writeCell_x (p : UWord) (t : Tryte) : (s.writeCell p t).x = s.x := by
  simp only [State.writeCell]; split <;> rfl
@[simp] theorem writeCell_y (p : UWord) (t : Tryte) : (s.writeCell p t).y = s.y := by
  simp only [State.writeCell]; split <;> rfl
@[simp] theorem writeCell_f (p : UWord) (t : Tryte) : (s.writeCell p t).f = s.f := by
  simp only [State.writeCell]; split <;> rfl
@[simp] theorem writeCell_pc (p : UWord) (t : Tryte) : (s.writeCell p t).pc = s.pc := by
  simp only [State.writeCell]; split <;> rfl
@[simp] theorem writeCell_sp (p : UWord) (t : Tryte) : (s.writeCell p t).sp = s.sp := by
  simp only [State.writeCell]; split <;> rfl
@[simp] theorem writeCell_db (p : UWord) (t : Tryte) : (s.writeCell p t).db = s.db := by
  simp only [State.writeCell]; split <;> rfl
@[simp] theorem writeCell_al (p : UWord) (t : Tryte) : (s.writeCell p t).al = s.al := by
  simp only [State.writeCell]; split <;> rfl
@[simp] theorem writeCell_phase (p : UWord) (t : Tryte) : (s.writeCell p t).phase = s.phase := by
  simp only [State.writeCell]; split <;> rfl

/-- A write in the current mode is the same write in both modes (R57). -/
@[simp] theorem wrM_eq_writeCell (p : UWord) (t : Tryte) : s.wrM p t = s.writeCell p t := by
  unfold State.wrM; split <;> rfl

@[simp] theorem storeAccess_cfg (r : Reg) : (s.storeAccess r).cfg = s.cfg := by
  simp [State.storeAccess]
@[simp] theorem storeAccess_a (r : Reg) : (s.storeAccess r).a = s.a := by
  simp [State.storeAccess]
@[simp] theorem storeAccess_c (r : Reg) : (s.storeAccess r).c = s.c := by
  simp [State.storeAccess]
@[simp] theorem storeAccess_d (r : Reg) : (s.storeAccess r).d = s.d := by
  simp [State.storeAccess]
@[simp] theorem storeAccess_x (r : Reg) : (s.storeAccess r).x = s.x := by
  simp [State.storeAccess]
@[simp] theorem storeAccess_y (r : Reg) : (s.storeAccess r).y = s.y := by
  simp [State.storeAccess]
@[simp] theorem storeAccess_f (r : Reg) : (s.storeAccess r).f = s.f := by
  simp [State.storeAccess]
@[simp] theorem storeAccess_pc (r : Reg) : (s.storeAccess r).pc = s.pc := by
  simp [State.storeAccess]
@[simp] theorem storeAccess_sp (r : Reg) : (s.storeAccess r).sp = s.sp := by
  simp [State.storeAccess]
@[simp] theorem storeAccess_db (r : Reg) : (s.storeAccess r).db = toBus s.f.bu (s.reg r) := by
  simp [State.storeAccess]
@[simp] theorem storeAccess_al (r : Reg) : (s.storeAccess r).al = s.al := by
  simp [State.storeAccess]
@[simp] theorem storeAccess_phase (r : Reg) : (s.storeAccess r).phase = s.phase := by
  simp [State.storeAccess]

end Sys2Proof.Machine
end

