-- ==== Sys2Proof/Laws/Ops.lean ====
section
/-!
SUPPORT. What each shared operation can do, said once: a later proof cites the lemma and does not unfold the operation.
-/

namespace Sys2Proof.Machine

variable (s : State)

/-- The outcome of an instruction is a next state exactly where its execution is a state. -/
theorem finish_next {r : Except Fault State} {t : State} :
    finish r = .next t ↔ ∃ u, r = .ok u ∧ t = u.endInstr := by
  cases r <;> simp [finish, eq_comm]

/-- No instruction ends in a refusal. -/
theorem finish_not_refused (r : Except Fault State) (q : Refusal) : finish r ≠ .refused q := by
  cases r <;> simp [finish]

/-- A bind that answers a value answers one on both sides. -/
theorem bind_ok {α β : Type} {x : Except Fault α} {g : α → Except Fault β} {b : β} :
    (x >>= g) = .ok b ↔ ∃ a, x = .ok a ∧ g a = .ok b := by
  cases x <;> simp [bind, Except.bind]

/-- A bind that stops stops on one of its sides. -/
theorem bind_error {α β : Type} {x : Except Fault α} {g : α → Except Fault β} {e : Fault} :
    (x >>= g) = .error e ↔ x = .error e ∨ ∃ a, x = .ok a ∧ g a = .error e := by
  cases x <;> simp [bind, Except.bind]

/-- What a tryte read answers: the valid cell, or the type's zero where nothing is mapped (R57, R61, R63). -/
theorem readOr_ok {z t : Tryte} {p : UWord} :
    s.readOr z p = .ok t ↔
      (s.cell (valU12 p) = some t ∧ validTryte t = true) ∨ (s.cell (valU12 p) = none ∧ t = z) := by
  unfold State.readOr raiseTritInvariant
  generalize s.cell (valU12 p) = c
  cases c with
  | none => exact ⟨fun h => by cases h; exact .inr ⟨rfl, rfl⟩, fun h => by
      rcases h with ⟨h, -⟩ | ⟨-, rfl⟩
      · cases h
      · rfl⟩
  | some u =>
    dsimp only
    by_cases hv : validTryte u = true
    · rw [if_pos hv]
      exact ⟨fun h => by cases h; exact .inl ⟨rfl, hv⟩, fun h => by
        rcases h with ⟨h, -⟩ | ⟨h, -⟩ <;> cases h
        rfl⟩
    · rw [if_neg hv]
      exact ⟨fun h => (by cases h), fun h => by
        rcases h with ⟨h, h2⟩ | ⟨h, -⟩ <;> cases h
        exact absurd h2 hv⟩

/-- When a tryte read stops: the mapped cell is no valid pattern (R63). -/
theorem readOr_error {z : Tryte} {p : UWord} {e : Fault} :
    s.readOr z p = .error e ↔
      ∃ t, s.cell (valU12 p) = some t ∧ validTryte t = false ∧ e = .tritInvariantViolation p := by
  unfold State.readOr raiseTritInvariant
  generalize s.cell (valU12 p) = c
  cases c with
  | none => exact ⟨fun h => (by cases h), fun ⟨_, h, _⟩ => (by cases h)⟩
  | some u =>
    dsimp only
    by_cases hv : validTryte u = true
    · rw [if_pos hv]
      exact ⟨fun h => (by cases h), fun ⟨_, h, h2, _⟩ => by
        cases h; rw [hv] at h2; cases h2⟩
    · rw [if_neg hv]
      exact ⟨fun h => by cases h; exact ⟨u, rfl, by simpa using hv, rfl⟩, fun ⟨_, _, _, h⟩ => by rw [h]⟩

/-- A data read is the read whose zero is that of the mode (R175). -/
theorem rdM_eq (p : UWord) :
    s.rdM p = s.readOr (match s.f.bu with | .balanced => 0x555#12 | .unbalanced => 0x000#12) p := by
  unfold State.rdM State.readB State.readU
  generalize s.f.bu = m
  cases m <;> rfl

/-- A read depends on the configuration and the memory alone. -/
theorem readOr_congr {s u : State} (hc : s.cfg = u.cfg) (hm : s.mem = u.mem) (z : Tryte) (p : UWord) :
    s.readOr z p = u.readOr z p := by
  simp only [State.readOr, State.cell, hc, hm]

/-- A data read depends on the configuration, the memory and the mode alone. -/
theorem rdM_congr {s u : State} (hc : s.cfg = u.cfg) (hm : s.mem = u.mem) (hb : s.f.bu = u.f.bu) (p : UWord) :
    s.rdM p = u.rdM p := by
  rw [rdM_eq, rdM_eq, hb, readOr_congr hc hm]

/-- The operand word taken whole (R176 to R178). -/
theorem takeWord_eq (w : UWord) :
    s.takeWord w = { s with db := hiTryte w, al := w, pc := incW (incW s.pc) } := by
  simp [State.takeWord, State.takeTryte, State.takeHigh, State.hiset]

/-- Following the pointer at AL: AL becomes the pointer word and DB its high tryte (R183). -/
theorem followPointer_ok {u : State} :
    s.followPointer = .ok u ↔ ∃ p, s.pointerAt s.al = .ok p ∧ u = { s with al := p, db := hiTryte p } := by
  simp only [State.followPointer, State.pointerLow, State.pointerHigh, State.pointerAt, State.readU, bind_ok]
  constructor
  · rintro ⟨s1, ⟨lo, hlo, h1⟩, hi, hhi, h2⟩
    cases h1
    cases h2
    exact ⟨_, ⟨lo, hlo, hi, by simpa [State.readOr, State.cell] using hhi, rfl⟩, by simp⟩
  · rintro ⟨p, ⟨lo, hlo, hi, hhi, hp⟩, rfl⟩
    cases hp
    exact ⟨_, ⟨lo, hlo, rfl⟩, hi, by simpa [State.readOr, State.cell] using hhi, by simp⟩

/-- A load access reads at AL and loads the datum (R186). -/
theorem loadAccess_ok {r : Reg} {u : State} :
    s.loadAccess r = .ok u ↔ ∃ b, s.rdM s.al = .ok b ∧ u = s.loadDatum r b := by
  rw [State.loadAccess, bind_ok]
  exact ⟨fun ⟨b, h, h2⟩ => ⟨b, h, by cases h2; rfl⟩, fun ⟨b, h, h2⟩ => ⟨b, h, by rw [h2]⟩⟩

/-- A store access writes DB and the cell at AL (R187). -/
theorem storeAccess_eq (r : Reg) :
    s.storeAccess r = ({ s with db := toBus s.f.bu (s.reg r) } : State).writeCell s.al (toBus s.f.bu (s.reg r)) := by
  simp [State.storeAccess]

end Sys2Proof.Machine
end

