-- ==== Sys2Proof/Laws/Instr.lean ====
section
/-!
SUPPORT. What each meaning that several instructions share can do, as one equation or one equivalence: a later proof rewrites
with these and never unfolds the meaning, the operand forms or the numeric layer.

The digit recursions are sealed in this file: two states that differ in a computed address are told apart at once, where
unfolding the recursions to compare them takes very long.
-/

namespace Sys2Proof.Machine

seal digitsEnc digitsValU digitsValB

variable (s : State)

/-- Two increments of an address. -/
theorem incW_incW (w : UWord) : incW (incW w) = encU12 (valU12 w + 2) := by
  have h : (valU12 (encU12 (valU12 w + 1)) : Int) = (valU12 w + 1) % 531441 := by
    simp only [valU12, encU12, toNat_ofNat_digitsEnc12, digitsValU_digitsEnc]
    norm_num [wordRange]
    omega
  have h2 : ((valU12 w + 1 : Int) % 531441 + 1) % (wordRange : Nat) = (valU12 w + 2) % (wordRange : Nat) := by
    norm_num [wordRange]
    omega
  simp only [incW]
  rw [h]
  simp only [encU12]
  rw [h2]

/-- An immediate load (R180, R186). -/
theorem loadImmediate_eq (r : Reg) (v : Tryte) :
    loadImmediate r v s = .next (({ s with
      db := v, pc := incW s.pc, phase := .fetch, f := { s.f with s := signM s.f.bu v } } : State).setReg r
        (fromBus s.f.bu v)) := by
  cases r <;> rfl

/-- A read depends on the configuration and the memory alone. -/
theorem readU_congr {u : State} (hc : u.cfg = s.cfg) (hm : u.mem = s.mem) (p : UWord) : u.readU p = s.readU p :=
  readOr_congr hc hm _ p

/-- The operand word taken and its pointer followed (R183). -/
theorem followPointer_takeWord (w : UWord) :
    (s.takeWord w).followPointer = (do
      let p ← s.pointerAt w
      .ok { s with al := p, db := hiTryte p, pc := incW (incW s.pc) }) := by
  rw [takeWord_eq]
  simp only [State.followPointer, State.pointerLow, State.pointerAt]
  rw [readU_congr s (u := { s with db := hiTryte w, al := w, pc := incW (incW s.pc) }) rfl rfl]
  cases s.readU w with
  | error e => rfl
  | ok lo =>
    simp only [State.pointerHigh, bind, Except.bind]
    rw [readU_congr s (u := { s with db := lo, al := w, pc := incW (incW s.pc) }) rfl rfl]
    cases s.readU (incW w) with
    | error e => rfl
    | ok hi => simp only [hiTryte_wordOf]

/-- The operand form of a memory instruction: the effective address in AL, PC behind the operand word, and in DB the last
operand or pointer tryte read (R181 to R184). -/
theorem latchAddress_eq (m : AddrMode) (w : UWord) :
    ∃ db : UWord → Tryte, s.latchAddress m w = (do
      let ea ← s.loadAddress m w
      .ok { s with al := ea, db := db ea, pc := incW (incW s.pc) }) := by
  cases m with
  | abs => exact ⟨fun _ => hiTryte w, by simp only [State.latchAddress, takeWord_eq]; rfl⟩
  | absX => exact ⟨fun _ => hiTryte w, by simp only [State.latchAddress, takeWord_eq]; rfl⟩
  | absY => exact ⟨fun _ => hiTryte w, by simp only [State.latchAddress, takeWord_eq]; rfl⟩
  | ind => exact ⟨hiTryte, by simp only [State.latchAddress, followPointer_takeWord]; rfl⟩
  | indX =>
    refine ⟨fun _ => (match s.pointerAt w with | .ok p => hiTryte p | .error _ => s.db), ?_⟩
    simp only [State.latchAddress, State.loadAddress, followPointer_takeWord]
    cases s.pointerAt w <;> rfl
  | indY =>
    refine ⟨fun _ => (match s.pointerAt w with | .ok p => hiTryte p | .error _ => s.db), ?_⟩
    simp only [State.latchAddress, State.loadAddress, followPointer_takeWord]
    cases s.pointerAt w <;> rfl

/-- A load from memory: address, datum, and what the register, F.S, the latches and PC become; it stops where one of the two
reads stops (R181 to R184, R186). -/
theorem loadMemory_eq (r : Reg) (m : AddrMode) (w : UWord) :
    loadMemory r m w s = finish (do
      let ea ← s.loadAddress m w
      let b ← s.rdM ea
      .ok (({ s with
        al := ea, db := b, pc := incW (incW s.pc), f := { s.f with s := signM s.f.bu b } } : State).setReg r
          (fromBus s.f.bu b))) := by
  obtain ⟨db, h⟩ := latchAddress_eq s m w
  rw [loadMemory, h]
  cases s.loadAddress m w with
  | error e => rfl
  | ok ea =>
    simp only [bind, Except.bind, State.loadAccess]
    rw [rdM_congr (s := { s with al := ea, db := db ea, pc := incW (incW s.pc) }) (u := s) rfl rfl rfl]
    cases s.rdM ea with
    | error e => rfl
    | ok b => cases r <;> rfl

/-- The effective address of a store is that of a load by the same mode, which always exists (R181, R182). -/
theorem loadAddress_stAddr (m : StMode) (w : UWord) : s.loadAddress (stAddr m) w = .ok (s.storeAddress m w) := by
  cases m <;> rfl

/-- A store: the register's pattern of the mode in DB and at the effective address (R187, R201). -/
theorem storeMemory_eq (r : Reg) (m : StMode) (w : UWord) :
    storeMemory r m w s = .next ({ s with
      al := s.storeAddress m w, db := toBus s.f.bu (s.reg r), pc := incW (incW s.pc), phase := .fetch,
      mem := (s.writeCell (s.storeAddress m w) (toBus s.f.bu (s.reg r))).mem } : State) := by
  obtain ⟨db, h⟩ := latchAddress_eq s (stAddr m) w
  rw [storeMemory, h, loadAddress_stAddr]
  simp only [bind, Except.bind, storeAccess_eq, finish, State.endInstr, State.writeCell]
  have hr : ∀ (u : State), u.a = s.a → u.c = s.c → u.d = s.d → u.x = s.x → u.y = s.y → u.reg r = s.reg r := by
    intro u h1 h2 h3 h4 h5
    cases r <;> assumption
  rw [hr _ rfl rfl rfl rfl rfl]
  cases locate s.cfg (valU12 (s.storeAddress m w)) <;> rfl

/-- An add of the operand tryte (R180, R260, R261). -/
theorem addImmediate_eq (k : AddKind) (v : Tryte) :
    addImmediate k v s = .next { s with
      db := v, pc := incW s.pc, phase := .fetch,
      a := (addByMode s.f s.a v (addIncrement s.cfg.adddbDelta s.f.cb .imm k)).1,
      f := (addByMode s.f s.a v (addIncrement s.cfg.adddbDelta s.f.cb .imm k)).2 } := rfl

/-- An add of D (R260, R261, R266). -/
theorem addData_eq (k : AddKind) :
    addData k s = .next { s with
      phase := .fetch,
      a := (addByMode s.f s.a (toBus s.f.bu s.d) (addIncrement s.cfg.adddbDelta s.f.cb .regD k)).1,
      f := (addByMode s.f s.a (toBus s.f.bu s.d) (addIncrement s.cfg.adddbDelta s.f.cb .regD k)).2 } := rfl

/-- A register transfer (R270). -/
theorem transfer_eq (t : Xfer) :
    transfer t s = .next (({ s with phase := .fetch } : State).setReg (xferDst t) (s.reg (xferSrc t))) := by
  cases t <;> rfl

/-- A flag-set instruction (R330). -/
theorem flagSet_eq (sel : FlagSel) (v : Tryte) :
    flagSet sel v s = .next { s with
      db := v, pc := incW s.pc, phase := .fetch, f := s.f.setBy s.cfg.flagToggle sel (valB v) } := rfl

/-- A conditional branch (R301). -/
theorem branchOn_eq (c : Cond) (w : UWord) :
    branchOn c w s = .next (if condHolds c s.f then
        { s with pc := w, al := w, db := hiTryte w, phase := .fetch }
      else { s with
        pc := incW (incW s.pc), al := wordOf (loTryte w) (hiTryte s.al), db := hiTryte w, phase := .fetch }) := by
  unfold branchOn
  by_cases h : condHolds c s.f = true
  · have h' : condHolds c ((s.takeTryte (loTryte w)).takeHigh (hiTryte w)).f = true := h
    rw [if_pos h]
    dsimp only
    rw [if_pos h']
    simp only [finish, State.endInstr, State.jumpToAl, State.hiset, State.takeHigh, State.takeTryte, loTryte_wordOf,
      wordOf_halves]
  · have h' : ¬ condHolds c ((s.takeTryte (loTryte w)).takeHigh (hiTryte w)).f = true := h
    rw [if_neg h]
    dsimp only
    rw [if_neg h']
    rfl

/-- The jump (R300). -/
theorem execJmp_eq (w : UWord) :
    execJmp w s = .next { s with pc := w, al := w, db := hiTryte w, phase := .fetch } := by
  unfold execJmp
  rw [takeWord_eq]
  rfl

end Sys2Proof.Machine
end

