-- ==== Sys2Proof/Laws/Exec.lean ====
section
/-!
SUPPORT. What an instruction can be and what it then runs: the one case analysis over the instruction set that later proofs
start from.
-/

namespace Sys2Proof.Machine

seal digitsEnc digitsValU digitsValB

/-- Every instruction is of one of twelve shapes, and `exec` runs the meaning of the shape. -/
theorem exec_cases (i : Instr) (s : State) :
    (∃ r m w, i.op = .ld r (.mem m) ∧ i.operands = [loTryte w, hiTryte w] ∧ exec i s = loadMemory r m w s) ∨
    (∃ r m w, i.op = .st r m ∧ i.operands = [loTryte w, hiTryte w] ∧ exec i s = storeMemory r m w s) ∨
    (∃ r v, i = .ld r .imm v 0 ∧ exec i s = loadImmediate r v s) ∨
    (∃ k v, i = .adds .imm k v ∧ exec i s = addImmediate k v s) ∨
    (∃ k, i = .adds .regD k 0 ∧ exec i s = addData k s) ∨
    (∃ t, i = .xfer t ∧ exec i s = transfer t s) ∨
    (i = .tyxsp ∧ exec i s = execTyxsp s) ∨
    (i = .tspyx ∧ exec i s = execTspyx s) ∨
    (∃ w, i = .jmp w ∧ exec i s = execJmp w s) ∨
    (∃ c w, i.op = .branch c ∧ i.operands = [loTryte w, hiTryte w] ∧ exec i s = branchOn c w s) ∨
    (∃ f v, i = .setFlag f v ∧ exec i s = flagSet f v s) ∨
    (∃ t, i = .invalid t ∧ exec i s = execInvalid s) := by
  cases i with
  | ldaImm v => exact .inr (.inr (.inl ⟨.a, v, rfl, rfl⟩))
  | ldaAbs w => exact .inl ⟨.a, .abs, w, rfl, rfl, rfl⟩
  | ldaAbsX w => exact .inl ⟨.a, .absX, w, rfl, rfl, rfl⟩
  | ldaAbsY w => exact .inl ⟨.a, .absY, w, rfl, rfl, rfl⟩
  | ldaInd w => exact .inl ⟨.a, .ind, w, rfl, rfl, rfl⟩
  | ldaIndX w => exact .inl ⟨.a, .indX, w, rfl, rfl, rfl⟩
  | ldaIndY w => exact .inl ⟨.a, .indY, w, rfl, rfl, rfl⟩
  | staAbs w => exact .inr (.inl ⟨.a, .abs, w, rfl, rfl, rfl⟩)
  | staAbsX w => exact .inr (.inl ⟨.a, .absX, w, rfl, rfl, rfl⟩)
  | staAbsY w => exact .inr (.inl ⟨.a, .absY, w, rfl, rfl, rfl⟩)
  | ldcImm v => exact .inr (.inr (.inl ⟨.c, v, rfl, rfl⟩))
  | ldcAbs w => exact .inl ⟨.c, .abs, w, rfl, rfl, rfl⟩
  | ldcAbsX w => exact .inl ⟨.c, .absX, w, rfl, rfl, rfl⟩
  | ldcAbsY w => exact .inl ⟨.c, .absY, w, rfl, rfl, rfl⟩
  | ldcInd w => exact .inl ⟨.c, .ind, w, rfl, rfl, rfl⟩
  | ldcIndX w => exact .inl ⟨.c, .indX, w, rfl, rfl, rfl⟩
  | ldcIndY w => exact .inl ⟨.c, .indY, w, rfl, rfl, rfl⟩
  | stcAbs w => exact .inr (.inl ⟨.c, .abs, w, rfl, rfl, rfl⟩)
  | stcAbsX w => exact .inr (.inl ⟨.c, .absX, w, rfl, rfl, rfl⟩)
  | stcAbsY w => exact .inr (.inl ⟨.c, .absY, w, rfl, rfl, rfl⟩)
  | lddImm v => exact .inr (.inr (.inl ⟨.d, v, rfl, rfl⟩))
  | lddAbs w => exact .inl ⟨.d, .abs, w, rfl, rfl, rfl⟩
  | lddAbsX w => exact .inl ⟨.d, .absX, w, rfl, rfl, rfl⟩
  | lddAbsY w => exact .inl ⟨.d, .absY, w, rfl, rfl, rfl⟩
  | lddInd w => exact .inl ⟨.d, .ind, w, rfl, rfl, rfl⟩
  | lddIndX w => exact .inl ⟨.d, .indX, w, rfl, rfl, rfl⟩
  | lddIndY w => exact .inl ⟨.d, .indY, w, rfl, rfl, rfl⟩
  | stdAbs w => exact .inr (.inl ⟨.d, .abs, w, rfl, rfl, rfl⟩)
  | stdAbsX w => exact .inr (.inl ⟨.d, .absX, w, rfl, rfl, rfl⟩)
  | stdAbsY w => exact .inr (.inl ⟨.d, .absY, w, rfl, rfl, rfl⟩)
  | ldxImm v => exact .inr (.inr (.inl ⟨.x, v, rfl, rfl⟩))
  | ldxAbs w => exact .inl ⟨.x, .abs, w, rfl, rfl, rfl⟩
  | ldxAbsX w => exact .inl ⟨.x, .absX, w, rfl, rfl, rfl⟩
  | ldxAbsY w => exact .inl ⟨.x, .absY, w, rfl, rfl, rfl⟩
  | ldxInd w => exact .inl ⟨.x, .ind, w, rfl, rfl, rfl⟩
  | ldxIndX w => exact .inl ⟨.x, .indX, w, rfl, rfl, rfl⟩
  | ldxIndY w => exact .inl ⟨.x, .indY, w, rfl, rfl, rfl⟩
  | stxAbs w => exact .inr (.inl ⟨.x, .abs, w, rfl, rfl, rfl⟩)
  | stxAbsX w => exact .inr (.inl ⟨.x, .absX, w, rfl, rfl, rfl⟩)
  | stxAbsY w => exact .inr (.inl ⟨.x, .absY, w, rfl, rfl, rfl⟩)
  | ldyImm v => exact .inr (.inr (.inl ⟨.y, v, rfl, rfl⟩))
  | ldyAbs w => exact .inl ⟨.y, .abs, w, rfl, rfl, rfl⟩
  | ldyAbsX w => exact .inl ⟨.y, .absX, w, rfl, rfl, rfl⟩
  | ldyAbsY w => exact .inl ⟨.y, .absY, w, rfl, rfl, rfl⟩
  | ldyInd w => exact .inl ⟨.y, .ind, w, rfl, rfl, rfl⟩
  | ldyIndX w => exact .inl ⟨.y, .indX, w, rfl, rfl, rfl⟩
  | ldyIndY w => exact .inl ⟨.y, .indY, w, rfl, rfl, rfl⟩
  | styAbs w => exact .inr (.inl ⟨.y, .abs, w, rfl, rfl, rfl⟩)
  | styAbsX w => exact .inr (.inl ⟨.y, .absX, w, rfl, rfl, rfl⟩)
  | styAbsY w => exact .inr (.inl ⟨.y, .absY, w, rfl, rfl, rfl⟩)
  | add v => exact .inr (.inr (.inr (.inl ⟨.plain, v, rfl, rfl⟩)))
  | addc v => exact .inr (.inr (.inr (.inl ⟨.carry, v, rfl, rfl⟩)))
  | addb v => exact .inr (.inr (.inr (.inl ⟨.borrow, v, rfl, rfl⟩)))
  | addd => exact .inr (.inr (.inr (.inr (.inl ⟨.plain, rfl, rfl⟩))))
  | adddc => exact .inr (.inr (.inr (.inr (.inl ⟨.carry, rfl, rfl⟩))))
  | adddb => exact .inr (.inr (.inr (.inr (.inl ⟨.borrow, rfl, rfl⟩))))
  | tac => exact .inr (.inr (.inr (.inr (.inr (.inl ⟨.tac, rfl, rfl⟩)))))
  | tad => exact .inr (.inr (.inr (.inr (.inr (.inl ⟨.tad, rfl, rfl⟩)))))
  | tax => exact .inr (.inr (.inr (.inr (.inr (.inl ⟨.tax, rfl, rfl⟩)))))
  | tay => exact .inr (.inr (.inr (.inr (.inr (.inl ⟨.tay, rfl, rfl⟩)))))
  | tca => exact .inr (.inr (.inr (.inr (.inr (.inl ⟨.tca, rfl, rfl⟩)))))
  | tcd => exact .inr (.inr (.inr (.inr (.inr (.inl ⟨.tcd, rfl, rfl⟩)))))
  | tcx => exact .inr (.inr (.inr (.inr (.inr (.inl ⟨.tcx, rfl, rfl⟩)))))
  | tcy => exact .inr (.inr (.inr (.inr (.inr (.inl ⟨.tcy, rfl, rfl⟩)))))
  | tda => exact .inr (.inr (.inr (.inr (.inr (.inl ⟨.tda, rfl, rfl⟩)))))
  | tdc => exact .inr (.inr (.inr (.inr (.inr (.inl ⟨.tdc, rfl, rfl⟩)))))
  | tdx => exact .inr (.inr (.inr (.inr (.inr (.inl ⟨.tdx, rfl, rfl⟩)))))
  | tdy => exact .inr (.inr (.inr (.inr (.inr (.inl ⟨.tdy, rfl, rfl⟩)))))
  | txa => exact .inr (.inr (.inr (.inr (.inr (.inl ⟨.txa, rfl, rfl⟩)))))
  | txc => exact .inr (.inr (.inr (.inr (.inr (.inl ⟨.txc, rfl, rfl⟩)))))
  | txd => exact .inr (.inr (.inr (.inr (.inr (.inl ⟨.txd, rfl, rfl⟩)))))
  | txy => exact .inr (.inr (.inr (.inr (.inr (.inl ⟨.txy, rfl, rfl⟩)))))
  | tya => exact .inr (.inr (.inr (.inr (.inr (.inl ⟨.tya, rfl, rfl⟩)))))
  | tyc => exact .inr (.inr (.inr (.inr (.inr (.inl ⟨.tyc, rfl, rfl⟩)))))
  | tyd => exact .inr (.inr (.inr (.inr (.inr (.inl ⟨.tyd, rfl, rfl⟩)))))
  | tyx => exact .inr (.inr (.inr (.inr (.inr (.inl ⟨.tyx, rfl, rfl⟩)))))
  | tyxsp => exact .inr (.inr (.inr (.inr (.inr (.inr (.inl ⟨rfl, rfl⟩))))))
  | tspyx => exact .inr (.inr (.inr (.inr (.inr (.inr (.inr (.inl ⟨rfl, rfl⟩)))))))
  | jmp w => exact .inr (.inr (.inr (.inr (.inr (.inr (.inr (.inr (.inl ⟨w, rfl, rfl⟩))))))))
  | bpos w => exact .inr (.inr (.inr (.inr (.inr (.inr (.inr (.inr (.inr (.inl ⟨⟨.s, .pos, false⟩, w, rfl, rfl, rfl⟩)))))))))
  | bzer w => exact .inr (.inr (.inr (.inr (.inr (.inr (.inr (.inr (.inr (.inl ⟨⟨.s, .zero, false⟩, w, rfl, rfl, rfl⟩)))))))))
  | bneg w => exact .inr (.inr (.inr (.inr (.inr (.inr (.inr (.inr (.inr (.inl ⟨⟨.s, .neg, false⟩, w, rfl, rfl, rfl⟩)))))))))
  | bnpos w => exact .inr (.inr (.inr (.inr (.inr (.inr (.inr (.inr (.inr (.inl ⟨⟨.s, .pos, true⟩, w, rfl, rfl, rfl⟩)))))))))
  | bnzer w => exact .inr (.inr (.inr (.inr (.inr (.inr (.inr (.inr (.inr (.inl ⟨⟨.s, .zero, true⟩, w, rfl, rfl, rfl⟩)))))))))
  | bnneg w => exact .inr (.inr (.inr (.inr (.inr (.inr (.inr (.inr (.inr (.inl ⟨⟨.s, .neg, true⟩, w, rfl, rfl, rfl⟩)))))))))
  | bovf w => exact .inr (.inr (.inr (.inr (.inr (.inr (.inr (.inr (.inr (.inl ⟨⟨.ou, .pos, false⟩, w, rfl, rfl, rfl⟩)))))))))
  | bneu w => exact .inr (.inr (.inr (.inr (.inr (.inr (.inr (.inr (.inr (.inl ⟨⟨.ou, .zero, false⟩, w, rfl, rfl, rfl⟩)))))))))
  | bunf w => exact .inr (.inr (.inr (.inr (.inr (.inr (.inr (.inr (.inr (.inl ⟨⟨.ou, .neg, false⟩, w, rfl, rfl, rfl⟩)))))))))
  | bnovf w => exact .inr (.inr (.inr (.inr (.inr (.inr (.inr (.inr (.inr (.inl ⟨⟨.ou, .pos, true⟩, w, rfl, rfl, rfl⟩)))))))))
  | bnneu w => exact .inr (.inr (.inr (.inr (.inr (.inr (.inr (.inr (.inr (.inl ⟨⟨.ou, .zero, true⟩, w, rfl, rfl, rfl⟩)))))))))
  | bnunf w => exact .inr (.inr (.inr (.inr (.inr (.inr (.inr (.inr (.inr (.inl ⟨⟨.ou, .neg, true⟩, w, rfl, rfl, rfl⟩)))))))))
  | bcar w => exact .inr (.inr (.inr (.inr (.inr (.inr (.inr (.inr (.inr (.inl ⟨⟨.cb, .pos, false⟩, w, rfl, rfl, rfl⟩)))))))))
  | bncb w => exact .inr (.inr (.inr (.inr (.inr (.inr (.inr (.inr (.inr (.inl ⟨⟨.cb, .zero, false⟩, w, rfl, rfl, rfl⟩)))))))))
  | bbor w => exact .inr (.inr (.inr (.inr (.inr (.inr (.inr (.inr (.inr (.inl ⟨⟨.cb, .neg, false⟩, w, rfl, rfl, rfl⟩)))))))))
  | bncar w => exact .inr (.inr (.inr (.inr (.inr (.inr (.inr (.inr (.inr (.inl ⟨⟨.cb, .pos, true⟩, w, rfl, rfl, rfl⟩)))))))))
  | bcob w => exact .inr (.inr (.inr (.inr (.inr (.inr (.inr (.inr (.inr (.inl ⟨⟨.cb, .zero, true⟩, w, rfl, rfl, rfl⟩)))))))))
  | bnbor w => exact .inr (.inr (.inr (.inr (.inr (.inr (.inr (.inr (.inr (.inl ⟨⟨.cb, .neg, true⟩, w, rfl, rfl, rfl⟩)))))))))
  | setou v => exact .inr (.inr (.inr (.inr (.inr (.inr (.inr (.inr (.inr (.inr (.inl ⟨.ou, v, rfl, rfl⟩))))))))))
  | setcb v => exact .inr (.inr (.inr (.inr (.inr (.inr (.inr (.inr (.inr (.inr (.inl ⟨.cb, v, rfl, rfl⟩))))))))))
  | seti v => exact .inr (.inr (.inr (.inr (.inr (.inr (.inr (.inr (.inr (.inr (.inl ⟨.i, v, rfl, rfl⟩))))))))))
  | setbu v => exact .inr (.inr (.inr (.inr (.inr (.inr (.inr (.inr (.inr (.inr (.inl ⟨.bu, v, rfl, rfl⟩))))))))))
  | invalid t => exact .inr (.inr (.inr (.inr (.inr (.inr (.inr (.inr (.inr (.inr (.inr (⟨t, rfl, rfl⟩)))))))))))

/-- The operation of a load, of an add, of a transfer and of a flag-set instruction. -/
theorem op_ld (r : Reg) (m : LdMode) (v : Tryte) (w : UWord) : (Instr.ld r m v w).op = .ld r m := by
  cases m with
  | imm => cases r <;> rfl
  | mem m => cases r <;> cases m <;> rfl

theorem op_adds (src : AddSource) (k : AddKind) (v : Tryte) : (Instr.adds src k v).op = .add src k := by
  cases src <;> cases k <;> rfl

theorem op_xfer (t : Xfer) : (Instr.xfer t).op = .xfer t := by
  cases t <;> rfl

theorem op_setFlag (f : FlagSel) (v : Tryte) : (Instr.setFlag f v).op = .setFlag f := by
  cases f <;> rfl

end Sys2Proof.Machine
end

