-- ==== Sys2Proof/Laws/PerInstr.lean ====
section
/-!
SUPPORT. A law of every instruction as syntax: its operation and its operand trytes rebuild it, so no operand bit and no mode is
lost between an instruction and the trytes it is made of.
-/

namespace Sys2Proof.Laws.Assembles

/-- Assembling the operation and the operand trytes of `i` gives `i` back. -/
def Statement (i : Instr) : Prop :=
  Instr.ofOp i.op (i.invalidTryte.getD 0) (i.operands.getD 0 0) (i.operands.getD 1 0) = i

theorem ldaImm (v : Tryte) : Statement (.ldaImm v) := rfl
theorem ldaAbs (w : UWord) : Statement (.ldaAbs w) := congrArg Instr.ldaAbs (wordOf_halves w)
theorem ldaAbsX (w : UWord) : Statement (.ldaAbsX w) := congrArg Instr.ldaAbsX (wordOf_halves w)
theorem ldaAbsY (w : UWord) : Statement (.ldaAbsY w) := congrArg Instr.ldaAbsY (wordOf_halves w)
theorem ldaInd (w : UWord) : Statement (.ldaInd w) := congrArg Instr.ldaInd (wordOf_halves w)
theorem ldaIndX (w : UWord) : Statement (.ldaIndX w) := congrArg Instr.ldaIndX (wordOf_halves w)
theorem ldaIndY (w : UWord) : Statement (.ldaIndY w) := congrArg Instr.ldaIndY (wordOf_halves w)
theorem staAbs (w : UWord) : Statement (.staAbs w) := congrArg Instr.staAbs (wordOf_halves w)
theorem staAbsX (w : UWord) : Statement (.staAbsX w) := congrArg Instr.staAbsX (wordOf_halves w)
theorem staAbsY (w : UWord) : Statement (.staAbsY w) := congrArg Instr.staAbsY (wordOf_halves w)
theorem ldcImm (v : Tryte) : Statement (.ldcImm v) := rfl
theorem ldcAbs (w : UWord) : Statement (.ldcAbs w) := congrArg Instr.ldcAbs (wordOf_halves w)
theorem ldcAbsX (w : UWord) : Statement (.ldcAbsX w) := congrArg Instr.ldcAbsX (wordOf_halves w)
theorem ldcAbsY (w : UWord) : Statement (.ldcAbsY w) := congrArg Instr.ldcAbsY (wordOf_halves w)
theorem ldcInd (w : UWord) : Statement (.ldcInd w) := congrArg Instr.ldcInd (wordOf_halves w)
theorem ldcIndX (w : UWord) : Statement (.ldcIndX w) := congrArg Instr.ldcIndX (wordOf_halves w)
theorem ldcIndY (w : UWord) : Statement (.ldcIndY w) := congrArg Instr.ldcIndY (wordOf_halves w)
theorem stcAbs (w : UWord) : Statement (.stcAbs w) := congrArg Instr.stcAbs (wordOf_halves w)
theorem stcAbsX (w : UWord) : Statement (.stcAbsX w) := congrArg Instr.stcAbsX (wordOf_halves w)
theorem stcAbsY (w : UWord) : Statement (.stcAbsY w) := congrArg Instr.stcAbsY (wordOf_halves w)
theorem lddImm (v : Tryte) : Statement (.lddImm v) := rfl
theorem lddAbs (w : UWord) : Statement (.lddAbs w) := congrArg Instr.lddAbs (wordOf_halves w)
theorem lddAbsX (w : UWord) : Statement (.lddAbsX w) := congrArg Instr.lddAbsX (wordOf_halves w)
theorem lddAbsY (w : UWord) : Statement (.lddAbsY w) := congrArg Instr.lddAbsY (wordOf_halves w)
theorem lddInd (w : UWord) : Statement (.lddInd w) := congrArg Instr.lddInd (wordOf_halves w)
theorem lddIndX (w : UWord) : Statement (.lddIndX w) := congrArg Instr.lddIndX (wordOf_halves w)
theorem lddIndY (w : UWord) : Statement (.lddIndY w) := congrArg Instr.lddIndY (wordOf_halves w)
theorem stdAbs (w : UWord) : Statement (.stdAbs w) := congrArg Instr.stdAbs (wordOf_halves w)
theorem stdAbsX (w : UWord) : Statement (.stdAbsX w) := congrArg Instr.stdAbsX (wordOf_halves w)
theorem stdAbsY (w : UWord) : Statement (.stdAbsY w) := congrArg Instr.stdAbsY (wordOf_halves w)
theorem ldxImm (v : Tryte) : Statement (.ldxImm v) := rfl
theorem ldxAbs (w : UWord) : Statement (.ldxAbs w) := congrArg Instr.ldxAbs (wordOf_halves w)
theorem ldxAbsX (w : UWord) : Statement (.ldxAbsX w) := congrArg Instr.ldxAbsX (wordOf_halves w)
theorem ldxAbsY (w : UWord) : Statement (.ldxAbsY w) := congrArg Instr.ldxAbsY (wordOf_halves w)
theorem ldxInd (w : UWord) : Statement (.ldxInd w) := congrArg Instr.ldxInd (wordOf_halves w)
theorem ldxIndX (w : UWord) : Statement (.ldxIndX w) := congrArg Instr.ldxIndX (wordOf_halves w)
theorem ldxIndY (w : UWord) : Statement (.ldxIndY w) := congrArg Instr.ldxIndY (wordOf_halves w)
theorem stxAbs (w : UWord) : Statement (.stxAbs w) := congrArg Instr.stxAbs (wordOf_halves w)
theorem stxAbsX (w : UWord) : Statement (.stxAbsX w) := congrArg Instr.stxAbsX (wordOf_halves w)
theorem stxAbsY (w : UWord) : Statement (.stxAbsY w) := congrArg Instr.stxAbsY (wordOf_halves w)
theorem ldyImm (v : Tryte) : Statement (.ldyImm v) := rfl
theorem ldyAbs (w : UWord) : Statement (.ldyAbs w) := congrArg Instr.ldyAbs (wordOf_halves w)
theorem ldyAbsX (w : UWord) : Statement (.ldyAbsX w) := congrArg Instr.ldyAbsX (wordOf_halves w)
theorem ldyAbsY (w : UWord) : Statement (.ldyAbsY w) := congrArg Instr.ldyAbsY (wordOf_halves w)
theorem ldyInd (w : UWord) : Statement (.ldyInd w) := congrArg Instr.ldyInd (wordOf_halves w)
theorem ldyIndX (w : UWord) : Statement (.ldyIndX w) := congrArg Instr.ldyIndX (wordOf_halves w)
theorem ldyIndY (w : UWord) : Statement (.ldyIndY w) := congrArg Instr.ldyIndY (wordOf_halves w)
theorem styAbs (w : UWord) : Statement (.styAbs w) := congrArg Instr.styAbs (wordOf_halves w)
theorem styAbsX (w : UWord) : Statement (.styAbsX w) := congrArg Instr.styAbsX (wordOf_halves w)
theorem styAbsY (w : UWord) : Statement (.styAbsY w) := congrArg Instr.styAbsY (wordOf_halves w)
theorem add (v : Tryte) : Statement (.add v) := rfl
theorem addc (v : Tryte) : Statement (.addc v) := rfl
theorem addb (v : Tryte) : Statement (.addb v) := rfl
theorem addd : Statement .addd := rfl
theorem adddc : Statement .adddc := rfl
theorem adddb : Statement .adddb := rfl
theorem tac : Statement .tac := rfl
theorem tad : Statement .tad := rfl
theorem tax : Statement .tax := rfl
theorem tay : Statement .tay := rfl
theorem tca : Statement .tca := rfl
theorem tcd : Statement .tcd := rfl
theorem tcx : Statement .tcx := rfl
theorem tcy : Statement .tcy := rfl
theorem tda : Statement .tda := rfl
theorem tdc : Statement .tdc := rfl
theorem tdx : Statement .tdx := rfl
theorem tdy : Statement .tdy := rfl
theorem txa : Statement .txa := rfl
theorem txc : Statement .txc := rfl
theorem txd : Statement .txd := rfl
theorem txy : Statement .txy := rfl
theorem tya : Statement .tya := rfl
theorem tyc : Statement .tyc := rfl
theorem tyd : Statement .tyd := rfl
theorem tyx : Statement .tyx := rfl
theorem tyxsp : Statement .tyxsp := rfl
theorem tspyx : Statement .tspyx := rfl
theorem jmp (w : UWord) : Statement (.jmp w) := congrArg Instr.jmp (wordOf_halves w)
theorem bpos (w : UWord) : Statement (.bpos w) := congrArg Instr.bpos (wordOf_halves w)
theorem bzer (w : UWord) : Statement (.bzer w) := congrArg Instr.bzer (wordOf_halves w)
theorem bneg (w : UWord) : Statement (.bneg w) := congrArg Instr.bneg (wordOf_halves w)
theorem bnpos (w : UWord) : Statement (.bnpos w) := congrArg Instr.bnpos (wordOf_halves w)
theorem bnzer (w : UWord) : Statement (.bnzer w) := congrArg Instr.bnzer (wordOf_halves w)
theorem bnneg (w : UWord) : Statement (.bnneg w) := congrArg Instr.bnneg (wordOf_halves w)
theorem bovf (w : UWord) : Statement (.bovf w) := congrArg Instr.bovf (wordOf_halves w)
theorem bneu (w : UWord) : Statement (.bneu w) := congrArg Instr.bneu (wordOf_halves w)
theorem bunf (w : UWord) : Statement (.bunf w) := congrArg Instr.bunf (wordOf_halves w)
theorem bnovf (w : UWord) : Statement (.bnovf w) := congrArg Instr.bnovf (wordOf_halves w)
theorem bnneu (w : UWord) : Statement (.bnneu w) := congrArg Instr.bnneu (wordOf_halves w)
theorem bnunf (w : UWord) : Statement (.bnunf w) := congrArg Instr.bnunf (wordOf_halves w)
theorem bcar (w : UWord) : Statement (.bcar w) := congrArg Instr.bcar (wordOf_halves w)
theorem bncb (w : UWord) : Statement (.bncb w) := congrArg Instr.bncb (wordOf_halves w)
theorem bbor (w : UWord) : Statement (.bbor w) := congrArg Instr.bbor (wordOf_halves w)
theorem bncar (w : UWord) : Statement (.bncar w) := congrArg Instr.bncar (wordOf_halves w)
theorem bcob (w : UWord) : Statement (.bcob w) := congrArg Instr.bcob (wordOf_halves w)
theorem bnbor (w : UWord) : Statement (.bnbor w) := congrArg Instr.bnbor (wordOf_halves w)
theorem setou (v : Tryte) : Statement (.setou v) := rfl
theorem setcb (v : Tryte) : Statement (.setcb v) := rfl
theorem seti (v : Tryte) : Statement (.seti v) := rfl
theorem setbu (v : Tryte) : Statement (.setbu v) := rfl
theorem invalid (t : Tryte) : Statement (.invalid t) := rfl

end Sys2Proof.Laws.Assembles
end

