-- ==== Sys2Proof/Tests/Slice0.lean ====
section
/-!
SUPPORT. Tests. Expected values are the spec's: the worked examples of the instruction rules, which start from state E0 of
95_test_vectors.md, and the vectors of that file. Encodings are written out from 30_encoding.md R82 and R90.
The theorems `witness_…` show states and operands that meet all hypotheses of the statement they name.
-/

namespace Sys2Proof.Tests

open Sys2Proof.Machine

set_option Elab.async false

/-! ## The checks of WellFormed -/

/-- Operand trytes with a field holding 3 are refused, in each place (R85, R81). -/
theorem test_badOperands : [Instr.ldaImm 0x003#12, .ldaAbs 0x000003#24, .ldaAbs 0xC00000#24, .setou 0xC00#12].any
    Instr.wellFormed = false := by decide

/-- An INVALID instruction whose tryte holds a 3, or is an assigned opcode, is refused (R87). -/
theorem test_badInvalid : [Instr.invalid 0x003#12, .invalid 0x040#12].any Instr.wellFormed = false := by decide

/-- Their well-formed neighbours are accepted. -/
theorem test_wellFormed : [Instr.ldaImm 0x002#12, .ldaAbs 0xAAAAAA#24, .setou 0xAAA#12, .invalid 0x000#12,
    .invalid 0x555#12, .tac].all Instr.wellFormed = true := by decide

/-- No machine is constructed for a CPS that is no positive number (R4, R355). -/
theorem test_cpsPositive : [(0, 1), (1, 0)].any (fun r => ({ testConfig with cps := ⟨r.1, r.2⟩ } : Config).admissible) = false ∧
    testConfig.admissible = true := by decide +kernel

/-! ## Decoding, from words written out (R82, R90) -/

theorem test_decode_loadsA : ∀ e ∈ ([
     ([0x040#12, 0x595#12], .ldaImm 0x595#12),
     ([0x041#12, 0x441#12, 0x001#12], .ldaAbs 0x001441#24),
     ([0x042#12, 0x441#12, 0x001#12], .ldaAbsX 0x001441#24),
     ([0x044#12, 0x441#12, 0x001#12], .ldaAbsY 0x001441#24),
     ([0x045#12, 0x441#12, 0x001#12], .ldaInd 0x001441#24),
     ([0x046#12, 0x441#12, 0x001#12], .ldaIndX 0x001441#24),
     ([0x048#12, 0x441#12, 0x001#12], .ldaIndY 0x001441#24)] :
    List (List Tryte × Instr)), decode defaultOpmap e.1 = .ok (e.2, []) ∧ encode e.2 = e.1 := by decide +kernel

theorem test_decode_stores : ∀ e ∈ ([
     ([0x050#12, 0x441#12, 0x001#12], .staAbs 0x001441#24),
     ([0x051#12, 0x441#12, 0x001#12], .staAbsX 0x001441#24),
     ([0x052#12, 0x441#12, 0x001#12], .staAbsY 0x001441#24),
     ([0x090#12, 0x441#12, 0x001#12], .stcAbs 0x001441#24),
     ([0x091#12, 0x441#12, 0x001#12], .stcAbsX 0x001441#24),
     ([0x092#12, 0x441#12, 0x001#12], .stcAbsY 0x001441#24),
     ([0x110#12, 0x441#12, 0x001#12], .stdAbs 0x001441#24),
     ([0x111#12, 0x441#12, 0x001#12], .stdAbsX 0x001441#24),
     ([0x112#12, 0x441#12, 0x001#12], .stdAbsY 0x001441#24),
     ([0x150#12, 0x441#12, 0x001#12], .stxAbs 0x001441#24),
     ([0x151#12, 0x441#12, 0x001#12], .stxAbsX 0x001441#24),
     ([0x152#12, 0x441#12, 0x001#12], .stxAbsY 0x001441#24),
     ([0x190#12, 0x441#12, 0x001#12], .styAbs 0x001441#24),
     ([0x191#12, 0x441#12, 0x001#12], .styAbsX 0x001441#24),
     ([0x192#12, 0x441#12, 0x001#12], .styAbsY 0x001441#24)] :
    List (List Tryte × Instr)), decode defaultOpmap e.1 = .ok (e.2, []) ∧ encode e.2 = e.1 := by decide +kernel

theorem test_decode_loadsC : ∀ e ∈ ([
     ([0x080#12, 0x595#12], .ldcImm 0x595#12),
     ([0x081#12, 0x441#12, 0x001#12], .ldcAbs 0x001441#24),
     ([0x082#12, 0x441#12, 0x001#12], .ldcAbsX 0x001441#24),
     ([0x084#12, 0x441#12, 0x001#12], .ldcAbsY 0x001441#24),
     ([0x085#12, 0x441#12, 0x001#12], .ldcInd 0x001441#24),
     ([0x086#12, 0x441#12, 0x001#12], .ldcIndX 0x001441#24),
     ([0x088#12, 0x441#12, 0x001#12], .ldcIndY 0x001441#24)] :
    List (List Tryte × Instr)), decode defaultOpmap e.1 = .ok (e.2, []) ∧ encode e.2 = e.1 := by decide +kernel

theorem test_decode_loadsD : ∀ e ∈ ([
     ([0x100#12, 0x595#12], .lddImm 0x595#12),
     ([0x101#12, 0x441#12, 0x001#12], .lddAbs 0x001441#24),
     ([0x102#12, 0x441#12, 0x001#12], .lddAbsX 0x001441#24),
     ([0x104#12, 0x441#12, 0x001#12], .lddAbsY 0x001441#24),
     ([0x105#12, 0x441#12, 0x001#12], .lddInd 0x001441#24),
     ([0x106#12, 0x441#12, 0x001#12], .lddIndX 0x001441#24),
     ([0x108#12, 0x441#12, 0x001#12], .lddIndY 0x001441#24)] :
    List (List Tryte × Instr)), decode defaultOpmap e.1 = .ok (e.2, []) ∧ encode e.2 = e.1 := by decide +kernel

theorem test_decode_loadsX : ∀ e ∈ ([
     ([0x140#12, 0x595#12], .ldxImm 0x595#12),
     ([0x141#12, 0x441#12, 0x001#12], .ldxAbs 0x001441#24),
     ([0x142#12, 0x441#12, 0x001#12], .ldxAbsX 0x001441#24),
     ([0x144#12, 0x441#12, 0x001#12], .ldxAbsY 0x001441#24),
     ([0x145#12, 0x441#12, 0x001#12], .ldxInd 0x001441#24),
     ([0x146#12, 0x441#12, 0x001#12], .ldxIndX 0x001441#24),
     ([0x148#12, 0x441#12, 0x001#12], .ldxIndY 0x001441#24)] :
    List (List Tryte × Instr)), decode defaultOpmap e.1 = .ok (e.2, []) ∧ encode e.2 = e.1 := by decide +kernel

theorem test_decode_loadsY : ∀ e ∈ ([
     ([0x180#12, 0x595#12], .ldyImm 0x595#12),
     ([0x181#12, 0x441#12, 0x001#12], .ldyAbs 0x001441#24),
     ([0x182#12, 0x441#12, 0x001#12], .ldyAbsX 0x001441#24),
     ([0x184#12, 0x441#12, 0x001#12], .ldyAbsY 0x001441#24),
     ([0x185#12, 0x441#12, 0x001#12], .ldyInd 0x001441#24),
     ([0x186#12, 0x441#12, 0x001#12], .ldyIndX 0x001441#24),
     ([0x188#12, 0x441#12, 0x001#12], .ldyIndY 0x001441#24)] :
    List (List Tryte × Instr)), decode defaultOpmap e.1 = .ok (e.2, []) ∧ encode e.2 = e.1 := by decide +kernel

theorem test_decode_adds : ∀ e ∈ ([
     ([0x200#12, 0x595#12], .add 0x595#12),
     ([0x201#12, 0x595#12], .addc 0x595#12),
     ([0x202#12, 0x595#12], .addb 0x595#12),
     ([0x204#12], .addd),
     ([0x205#12], .adddc),
     ([0x206#12], .adddb)] :
    List (List Tryte × Instr)), decode defaultOpmap e.1 = .ok (e.2, []) ∧ encode e.2 = e.1 := by decide +kernel

theorem test_decode_transfers : ∀ e ∈ ([
     ([0x240#12], .tac),
     ([0x241#12], .tad),
     ([0x242#12], .tax),
     ([0x244#12], .tay),
     ([0x245#12], .tca),
     ([0x246#12], .tcd),
     ([0x248#12], .tcx),
     ([0x249#12], .tcy),
     ([0x24A#12], .tda),
     ([0x250#12], .tdc),
     ([0x251#12], .tdx),
     ([0x252#12], .tdy),
     ([0x254#12], .txa),
     ([0x255#12], .txc),
     ([0x256#12], .txd),
     ([0x258#12], .txy),
     ([0x259#12], .tya),
     ([0x25A#12], .tyc),
     ([0x260#12], .tyd),
     ([0x261#12], .tyx),
     ([0x280#12], .tyxsp),
     ([0x281#12], .tspyx)] :
    List (List Tryte × Instr)), decode defaultOpmap e.1 = .ok (e.2, []) ∧ encode e.2 = e.1 := by decide +kernel

theorem test_decode_control : ∀ e ∈ ([
     ([0x400#12, 0x441#12, 0x001#12], .jmp 0x001441#24),
     ([0x401#12, 0x441#12, 0x001#12], .bpos 0x001441#24),
     ([0x402#12, 0x441#12, 0x001#12], .bzer 0x001441#24),
     ([0x404#12, 0x441#12, 0x001#12], .bneg 0x001441#24),
     ([0x405#12, 0x441#12, 0x001#12], .bnpos 0x001441#24),
     ([0x406#12, 0x441#12, 0x001#12], .bnzer 0x001441#24),
     ([0x408#12, 0x441#12, 0x001#12], .bnneg 0x001441#24),
     ([0x409#12, 0x441#12, 0x001#12], .bovf 0x001441#24),
     ([0x40A#12, 0x441#12, 0x001#12], .bneu 0x001441#24),
     ([0x410#12, 0x441#12, 0x001#12], .bunf 0x001441#24),
     ([0x411#12, 0x441#12, 0x001#12], .bnovf 0x001441#24),
     ([0x412#12, 0x441#12, 0x001#12], .bnneu 0x001441#24),
     ([0x414#12, 0x441#12, 0x001#12], .bnunf 0x001441#24),
     ([0x415#12, 0x441#12, 0x001#12], .bcar 0x001441#24),
     ([0x416#12, 0x441#12, 0x001#12], .bncb 0x001441#24),
     ([0x418#12, 0x441#12, 0x001#12], .bbor 0x001441#24),
     ([0x419#12, 0x441#12, 0x001#12], .bncar 0x001441#24),
     ([0x41A#12, 0x441#12, 0x001#12], .bcob 0x001441#24),
     ([0x420#12, 0x441#12, 0x001#12], .bnbor 0x001441#24)] :
    List (List Tryte × Instr)), decode defaultOpmap e.1 = .ok (e.2, []) ∧ encode e.2 = e.1 := by decide +kernel

theorem test_decode_flagOps : ∀ e ∈ ([
     ([0x440#12, 0x595#12], .setou 0x595#12),
     ([0x441#12, 0x595#12], .setcb 0x595#12),
     ([0x442#12, 0x595#12], .seti 0x595#12),
     ([0x444#12, 0x595#12], .setbu 0x595#12),
     ([0x000#12], .invalid 0x000#12)] :
    List (List Tryte × Instr)), decode defaultOpmap e.1 = .ok (e.2, []) ∧ encode e.2 = e.1 := by decide +kernel

/-- Patterns with a field holding 3, and streams that end too early, are rejected by name. -/
theorem test_decode_rejects : decode defaultOpmap [0x003#12] = .error (.codeThree 0) ∧
    decode defaultOpmap [0x040#12, 0x00C#12] = .error (.codeThree 1) ∧
    decode defaultOpmap [0x041#12, 0x000#12, 0xC00#12] = .error (.codeThree 2) ∧
    decode defaultOpmap [] = .error (.missing 0) ∧ decode defaultOpmap [0x041#12, 0x000#12] = .error (.missing 2) := by
  decide +kernel

/-- The bytes of `LDA #27` at RAM address 0 (R93). -/
theorem test_bytes : bytesOfTrytes [0x040#12, 0x595#12] = [0x40#8, 0x50#8, 0x59#8] ∧
    decodeTableWord 24 0x595040 = some (.ldaImm 0x595#12) := by decide +kernel

/-! ## One step each, from state E0 (95_test_vectors.md section 0) -/

/-- A state with trytes stored from address `v` on. -/
def put (s : State) (v : Nat) (ts : List Tryte) : State := s.storeTrytes (encU12 v) ts

/-- E0: A = 5, C = -7, D = 40, X = 3, Y = -2, PC = 100, and eight data trytes. -/
def e0 : State :=
  [(998, 0x684#12), (1000, 0x424#12), (1003, 0x68A#12), (1500, 0x882#12), (1501, 0x002#12), (1998, 0x205#12),
    (2000, 0x8A8#12), (2003, 0x1AA#12)].foldl (fun s e => put s e.1 [e.2])
    { State.reset with a := encB 5, c := encB (-7), d := encB 40, x := encB 3, y := encB (-2), pc := encU12 100 }

/-- The state after one step from `s` with an instruction's trytes at 100. -/
def stepped (s : State) (ts : List Tryte) : Option State :=
  match step (put s 100 ts) with
  | .next t => some t
  | _ => none

/-- What the 7 forms of a load leave: the register's value, F.S, PC, AL. -/
def loadResults (r : Reg) (ts : List (List Tryte)) : List (Option (Int × Trit × Nat × Nat)) :=
  ts.map fun x => (stepped e0 x).map fun t => (valB (t.reg r), t.f.s, valU12 t.pc, valU12 t.al)

theorem test_lda : loadResults .a [[0x040#12, 0x515#12], [0x041#12, 0x441#12, 0x001#12], [0x042#12, 0x441#12, 0x001#12], [0x044#12, 0x441#12, 0x001#12],
      [0x045#12, 0x058#12, 0x002#12], [0x046#12, 0x058#12, 0x002#12], [0x048#12, 0x058#12, 0x002#12]] =
    [some (-27, .neg, 102, 0), some (-100, .neg, 103, 1000), some (103, .pos, 103, 1003), some (98, .pos, 103, 998), some (200, .pos, 103, 2000), some (-203, .neg, 103, 2003), some (-198, .neg, 103, 1998)] := by
  decide +kernel

theorem test_ldc : loadResults .c [[0x080#12, 0x515#12], [0x081#12, 0x441#12, 0x001#12], [0x082#12, 0x441#12, 0x001#12], [0x084#12, 0x441#12, 0x001#12],
      [0x085#12, 0x058#12, 0x002#12], [0x086#12, 0x058#12, 0x002#12], [0x088#12, 0x058#12, 0x002#12]] =
    [some (-27, .neg, 102, 0), some (-100, .neg, 103, 1000), some (103, .pos, 103, 1003), some (98, .pos, 103, 998), some (200, .pos, 103, 2000), some (-203, .neg, 103, 2003), some (-198, .neg, 103, 1998)] := by
  decide +kernel

theorem test_ldd : loadResults .d [[0x100#12, 0x515#12], [0x101#12, 0x441#12, 0x001#12], [0x102#12, 0x441#12, 0x001#12], [0x104#12, 0x441#12, 0x001#12],
      [0x105#12, 0x058#12, 0x002#12], [0x106#12, 0x058#12, 0x002#12], [0x108#12, 0x058#12, 0x002#12]] =
    [some (-27, .neg, 102, 0), some (-100, .neg, 103, 1000), some (103, .pos, 103, 1003), some (98, .pos, 103, 998), some (200, .pos, 103, 2000), some (-203, .neg, 103, 2003), some (-198, .neg, 103, 1998)] := by
  decide +kernel

theorem test_ldx : loadResults .x [[0x140#12, 0x515#12], [0x141#12, 0x441#12, 0x001#12], [0x142#12, 0x441#12, 0x001#12], [0x144#12, 0x441#12, 0x001#12],
      [0x145#12, 0x058#12, 0x002#12], [0x146#12, 0x058#12, 0x002#12], [0x148#12, 0x058#12, 0x002#12]] =
    [some (-27, .neg, 102, 0), some (-100, .neg, 103, 1000), some (103, .pos, 103, 1003), some (98, .pos, 103, 998), some (200, .pos, 103, 2000), some (-203, .neg, 103, 2003), some (-198, .neg, 103, 1998)] := by
  decide +kernel

theorem test_ldy : loadResults .y [[0x180#12, 0x515#12], [0x181#12, 0x441#12, 0x001#12], [0x182#12, 0x441#12, 0x001#12], [0x184#12, 0x441#12, 0x001#12],
      [0x185#12, 0x058#12, 0x002#12], [0x186#12, 0x058#12, 0x002#12], [0x188#12, 0x058#12, 0x002#12]] =
    [some (-27, .neg, 102, 0), some (-100, .neg, 103, 1000), some (103, .pos, 103, 1003), some (98, .pos, 103, 998), some (200, .pos, 103, 2000), some (-203, .neg, 103, 2003), some (-198, .neg, 103, 1998)] := by
  decide +kernel

/-- What a store leaves at an address, and that F is as before. -/
def storeResult (v : Nat) (ts : List Tryte) : Option (Option Tryte × Bool × Nat) :=
  (stepped e0 ts).map fun t => (t.cell v, decide (t.f = e0.f), valU12 t.pc)

theorem test_sta : 
    storeResult 3000 [0x050#12, 0x104#12, 0x005#12] = some (some 0x560#12, true, 103) ∧ 
    storeResult 3003 [0x051#12, 0x104#12, 0x005#12] = some (some 0x560#12, true, 103) ∧ 
    storeResult 2998 [0x052#12, 0x104#12, 0x005#12] = some (some 0x560#12, true, 103) := by decide +kernel

theorem test_stc : 
    storeResult 3000 [0x090#12, 0x104#12, 0x005#12] = some (some 0x548#12, true, 103) ∧ 
    storeResult 3003 [0x091#12, 0x104#12, 0x005#12] = some (some 0x548#12, true, 103) ∧ 
    storeResult 2998 [0x092#12, 0x104#12, 0x005#12] = some (some 0x548#12, true, 103) := by decide +kernel

theorem test_std : 
    storeResult 3000 [0x110#12, 0x104#12, 0x005#12] = some (some 0x5AA#12, true, 103) ∧ 
    storeResult 3003 [0x111#12, 0x104#12, 0x005#12] = some (some 0x5AA#12, true, 103) ∧ 
    storeResult 2998 [0x112#12, 0x104#12, 0x005#12] = some (some 0x5AA#12, true, 103) := by decide +kernel

theorem test_stx : 
    storeResult 3000 [0x150#12, 0x104#12, 0x005#12] = some (some 0x559#12, true, 103) ∧ 
    storeResult 3003 [0x151#12, 0x104#12, 0x005#12] = some (some 0x559#12, true, 103) ∧ 
    storeResult 2998 [0x152#12, 0x104#12, 0x005#12] = some (some 0x559#12, true, 103) := by decide +kernel

theorem test_sty : 
    storeResult 3000 [0x190#12, 0x104#12, 0x005#12] = some (some 0x552#12, true, 103) ∧ 
    storeResult 3003 [0x191#12, 0x104#12, 0x005#12] = some (some 0x552#12, true, 103) ∧ 
    storeResult 2998 [0x192#12, 0x104#12, 0x005#12] = some (some 0x552#12, true, 103) := by decide +kernel

/-- What an add leaves: A, PC, and F.S, F.OU, F.CB, from E0 with F.CB as given. -/
def addLeaves (cb : Trit) (ts : List Tryte) (a : Int) (pc : Nat) (s ou cb' : Trit) : Bool :=
  (stepped { e0 with f := { e0.f with cb := cb } } ts).any fun t =>
    valB t.a == a && valU12 t.pc == pc && t.f.s == s && t.f.ou == ou && t.f.cb == cb'

theorem test_adds : 
    addLeaves .zero [0x200#12, 0x559#12] (8) 102 .pos .zero .zero = true ∧ 
    addLeaves .pos [0x201#12, 0x559#12] (9) 102 .pos .zero .pos = true ∧ 
    addLeaves .neg [0x202#12, 0x559#12] (7) 102 .pos .zero .neg = true := by decide +kernel

theorem test_addsOfD : 
    addLeaves .zero [0x204#12] (45) 101 .pos .zero .zero = true ∧ 
    addLeaves .pos [0x205#12] (46) 101 .pos .zero .pos = true ∧ 
    addLeaves .neg [0x206#12] (44) 101 .pos .zero .neg = true := by decide +kernel

/-- Unbalanced 728 + 1 is 0 with carry, and balanced 364 + 1 is -364 with overflow (R263). -/
theorem test_addWraps :
    (stepped { e0 with a := encB (-1), f := { e0.f with bu := .unbalanced } } [0x200#12, encU 1]).map
      (fun t => (valB t.a, t.f.s, t.f.cb)) = some (0, .zero, .pos) ∧
    (stepped { e0 with a := encB 364 } [0x200#12, encB 1]).map (fun t => (valB t.a, t.f.s, t.f.ou)) =
      some (-364, .neg, .pos) := by decide +kernel

theorem test_transfers0 : 
    (stepped e0 [0x240#12]).map (fun t => (valB t.c, valB t.a, valU12 t.pc)) = some (5, 5, 101) ∧ 
    (stepped e0 [0x241#12]).map (fun t => (valB t.d, valB t.a, valU12 t.pc)) = some (5, 5, 101) ∧ 
    (stepped e0 [0x242#12]).map (fun t => (valB t.x, valB t.a, valU12 t.pc)) = some (5, 5, 101) ∧ 
    (stepped e0 [0x244#12]).map (fun t => (valB t.y, valB t.a, valU12 t.pc)) = some (5, 5, 101) := by decide +kernel

theorem test_transfers1 : 
    (stepped e0 [0x245#12]).map (fun t => (valB t.a, valB t.c, valU12 t.pc)) = some (-7, -7, 101) ∧ 
    (stepped e0 [0x246#12]).map (fun t => (valB t.d, valB t.c, valU12 t.pc)) = some (-7, -7, 101) ∧ 
    (stepped e0 [0x248#12]).map (fun t => (valB t.x, valB t.c, valU12 t.pc)) = some (-7, -7, 101) ∧ 
    (stepped e0 [0x249#12]).map (fun t => (valB t.y, valB t.c, valU12 t.pc)) = some (-7, -7, 101) := by decide +kernel

theorem test_transfers2 : 
    (stepped e0 [0x24A#12]).map (fun t => (valB t.a, valB t.d, valU12 t.pc)) = some (40, 40, 101) ∧ 
    (stepped e0 [0x250#12]).map (fun t => (valB t.c, valB t.d, valU12 t.pc)) = some (40, 40, 101) ∧ 
    (stepped e0 [0x251#12]).map (fun t => (valB t.x, valB t.d, valU12 t.pc)) = some (40, 40, 101) ∧ 
    (stepped e0 [0x252#12]).map (fun t => (valB t.y, valB t.d, valU12 t.pc)) = some (40, 40, 101) := by decide +kernel

theorem test_transfers3 : 
    (stepped e0 [0x254#12]).map (fun t => (valB t.a, valB t.x, valU12 t.pc)) = some (3, 3, 101) ∧ 
    (stepped e0 [0x255#12]).map (fun t => (valB t.c, valB t.x, valU12 t.pc)) = some (3, 3, 101) ∧ 
    (stepped e0 [0x256#12]).map (fun t => (valB t.d, valB t.x, valU12 t.pc)) = some (3, 3, 101) ∧ 
    (stepped e0 [0x258#12]).map (fun t => (valB t.y, valB t.x, valU12 t.pc)) = some (3, 3, 101) := by decide +kernel

theorem test_transfers4 : 
    (stepped e0 [0x259#12]).map (fun t => (valB t.a, valB t.y, valU12 t.pc)) = some (-2, -2, 101) ∧ 
    (stepped e0 [0x25A#12]).map (fun t => (valB t.c, valB t.y, valU12 t.pc)) = some (-2, -2, 101) ∧ 
    (stepped e0 [0x260#12]).map (fun t => (valB t.d, valB t.y, valU12 t.pc)) = some (-2, -2, 101) ∧ 
    (stepped e0 [0x261#12]).map (fun t => (valB t.x, valB t.y, valU12 t.pc)) = some (-2, -2, 101) := by decide +kernel

theorem test_tyxsp : (stepped e0 [0x280#12]).map (fun t => (valU12 t.sp, valU12 t.pc)) = some (529986, 101) := by
  decide +kernel

theorem test_tspyx : (stepped e0 [0x281#12]).map (fun t => (valB t.x, valB t.y, valU12 t.sp)) = some (-1, -1, 531440) := by
  decide +kernel

theorem test_jmp : (stepped e0 [0x400#12, 0x821#12, 0x001#12]).map (fun t => (valU12 t.pc, valU12 t.al, decide (t.f = e0.f))) =
    some (1234, 1234, true) := by decide +kernel

/-- PC after a branch, for the tested trit at +1, 0, -1. -/
def branchPcs (set : Trit → Flags) (op : Tryte) : List (Option Nat) :=
  [Trit.pos, .zero, .neg].map fun d =>
    (stepped { e0 with f := set d } [op, 0x821#12, 0x001#12]).map fun t => valU12 t.pc

theorem test_branches_sign : 
    branchPcs (fun d => { e0.f with s := d }) 0x401#12 = [some 1234, some 103, some 103] ∧ 
    branchPcs (fun d => { e0.f with s := d }) 0x402#12 = [some 103, some 1234, some 103] ∧ 
    branchPcs (fun d => { e0.f with s := d }) 0x404#12 = [some 103, some 103, some 1234] ∧ 
    branchPcs (fun d => { e0.f with s := d }) 0x405#12 = [some 103, some 1234, some 1234] ∧ 
    branchPcs (fun d => { e0.f with s := d }) 0x406#12 = [some 1234, some 103, some 1234] ∧ 
    branchPcs (fun d => { e0.f with s := d }) 0x408#12 = [some 1234, some 1234, some 103] := by decide +kernel

theorem test_branches_overflow : 
    branchPcs (fun d => { e0.f with ou := d }) 0x409#12 = [some 1234, some 103, some 103] ∧ 
    branchPcs (fun d => { e0.f with ou := d }) 0x40A#12 = [some 103, some 1234, some 103] ∧ 
    branchPcs (fun d => { e0.f with ou := d }) 0x410#12 = [some 103, some 103, some 1234] ∧ 
    branchPcs (fun d => { e0.f with ou := d }) 0x411#12 = [some 103, some 1234, some 1234] ∧ 
    branchPcs (fun d => { e0.f with ou := d }) 0x412#12 = [some 1234, some 103, some 1234] ∧ 
    branchPcs (fun d => { e0.f with ou := d }) 0x414#12 = [some 1234, some 1234, some 103] := by decide +kernel

theorem test_branches_carry : 
    branchPcs (fun d => { e0.f with cb := d }) 0x415#12 = [some 1234, some 103, some 103] ∧ 
    branchPcs (fun d => { e0.f with cb := d }) 0x416#12 = [some 103, some 1234, some 103] ∧ 
    branchPcs (fun d => { e0.f with cb := d }) 0x418#12 = [some 103, some 103, some 1234] ∧ 
    branchPcs (fun d => { e0.f with cb := d }) 0x419#12 = [some 103, some 1234, some 1234] ∧ 
    branchPcs (fun d => { e0.f with cb := d }) 0x41A#12 = [some 1234, some 103, some 1234] ∧ 
    branchPcs (fun d => { e0.f with cb := d }) 0x420#12 = [some 1234, some 1234, some 103] := by decide +kernel

/-- The packed value of F after a flag-set instruction with operand +1, 0, -1, 5, from E0. -/
def flagValues (op : Tryte) : List (Option Int) :=
  [1, 0, -1, 5].map fun v => (stepped e0 [op, encB v]).map fun t => valB t.f.pack

theorem test_flagOps : 
    flagValues 0x440#12 = [some 93, some 12, some (-69), some 12] ∧ 
    flagValues 0x441#12 = [some 39, some 12, some (-15), some 12] ∧ 
    flagValues 0x442#12 = [some 12, some 12, some (-6), some 12] ∧ 
    flagValues 0x444#12 = [some 12, some 12, some 6, some 12] := by decide +kernel

/-- `SETOU 0` from +1 gives -1 under the default FLAG_TOGGLE (R331), and SETBU works from unbalanced mode (R334). -/
theorem test_flagToggle :
    (stepped { e0 with f := { e0.f with ou := .pos } } [0x440#12, 0x555#12]).map (fun t => t.f.ou) = some .neg ∧
    (stepped { e0 with f := { e0.f with bu := .unbalanced } } [0x444#12, 0x556#12]).map (fun t => t.f.bu) =
      some .balanced := by decide +kernel

theorem test_invalid : stepped e0 [0x000#12] = some { put e0 100 [0x000#12] with pc := encU12 101, db := 0x000#12 } := by
  decide +kernel

/-- The step is the run of the ticks for the longest form: `LDA (1500),X`, 7 ticks (R188). -/
theorem test_ticks :
    (match runTicks 7 (put e0 100 [0x046#12, 0x058#12, 0x002#12]) with
      | .next t => some t
      | _ => none) = stepped e0 [0x046#12, 0x058#12, 0x002#12] := by decide +kernel

/-- V-MEM-10: a RAM byte `0x03` set by the host faults the read of address 0. -/
def badByte0 : State := { State.reset with mem := { Memory.empty with ram := [(0, 0x03#8)] } }

theorem test_faultRead : badByte0.readU 0 = .error (.tritInvariantViolation 0) := by decide +kernel

/-- V-INV-3: RAM byte 150 set to `0xFF` by the host faults the fetch at PC = 100. -/
def badByte150 : State :=
  { State.reset with pc := encU12 100, mem := { Memory.empty with ram := [(150, 0xFF#8)] } }

/-- Whether an outcome is a fault at `a`. -/
def faultsAt (o : Host.Outcome State Fault Refusal) (a : UWord) : Bool :=
  match o with
  | .fault e => e = .tritInvariantViolation a
  | _ => false

/-- Whether an outcome is a next state. -/
def goesOn (o : Host.Outcome State Fault Refusal) : Bool :=
  match o with
  | .next _ => true
  | _ => false

theorem test_faultFetch : faultsAt (tick badByte150) (encU12 100) = true ∧ faultsAt (step badByte150) (encU12 100) = true := by
  decide +kernel

/-! ## The ALU vectors (40_alu_numeric.md, 41_alu_shift_logic.md) -/

/-- The examples of R109 to R111 and R114. -/
theorem test_conversions : encB 365 = 0x000#12 ∧ encB (-365) = 0xAAA#12 ∧ encU (-1) = 0xAAA#12 ∧
    toUTryte 0x554#12 = 0xAAA#12 ∧ toUTryte 0x000#12 = 0x556#12 ∧ toTryte 0x040#12 = 0x595#12 ∧ toTryte 0xAAA#12 = 0x554#12 ∧
    toUWordS 0x554#12 = 0xAAAAAA#24 ∧ toUWordS 0x000#12 = 0xAAA556#24 := by decide +kernel

/-- The corners of R119 and R120. -/
theorem test_arithmetic : addB (encB 364) (encB 1) = encB (-364) ∧ addB (encB (-364)) (encB (-364)) = encB 1 ∧
    addU (encU 728) (encU 728) = encU 727 ∧ subB (encB (-364)) (encB 1) = encB 364 ∧ subU 0 1 = encU 728 := by
  decide +kernel

/-- The examples of R140, R141, R143 and R144. -/
theorem test_shifts : valB (shlB (encB 100) 2) = 171 ∧ valB (shlB (encB 364) 1) = 363 ∧ valU (shlU (encU 728) 1) = 726 ∧
    valB (shrB (encB 5) 1) = 2 ∧ valB (shrB (encB (-5)) 1) = -2 ∧ valB (shrB (encB 364) 2) = 40 ∧
    valU (shrU (encU 728) 1) = 242 := by decide +kernel

/-- The mask example of R158: OR of F at reset with `0x080` sets CB. -/
theorem test_flagMask : tryteOfTrits .neg .neg .pos .neg .neg .neg = 0x080#12 ∧
    orB testConfig resetFlags.pack 0x080#12 = Flags.pack { resetFlags with cb := .pos } := by decide +kernel

/-! ## Witnesses: the hypotheses of every statement are met -/

/-- An outcome that goes on has a next state. -/
theorem next_of_goesOn {o : Host.Outcome State Fault Refusal} (h : goesOn o = true) : ∃ t, o = .next t := by
  cases o with
  | next t => exact ⟨t, rfl⟩
  | fault e => cases h
  | refused r => cases h

/-- An outcome that faults at `a` is that fault. -/
theorem fault_of_faultsAt {o : Host.Outcome State Fault Refusal} {a : UWord} (h : faultsAt o a = true) :
    o = .fault (.tritInvariantViolation a) := by
  cases o with
  | next t => cases h
  | fault e => simp only [faultsAt, decide_eq_true_eq] at h; rw [h]
  | refused r => cases h

theorem witness_DecodedValuesAreDigitSums : valB (encB (-364)) = -364 ∧ valB (encB 364) = 364 ∧ valU (encU 728) = 728 ∧
    valU12 (encU12 531440) = 531440 := by decide +kernel

theorem witness_ValidPatternsAndValuesCorrespond : validTryte 0x000#12 = true ∧ validTryte 0xAAA#12 = true ∧
    validWord 0xAAAAAA#24 = true := by decide +kernel

/-- The values 0, -1, 364 and 365 at which the clauses meet. -/
theorem witness_TryteConversions : validTryte 0x555#12 = true ∧ valB 0x555#12 = 0 ∧ validTryte 0x554#12 = true ∧
    valB 0x554#12 = -1 ∧ valU 0x555#12 = 364 ∧ validTryte 0x556#12 = true ∧ valU 0x556#12 = 365 := by decide +kernel

theorem witness_WordConversions : validWord 0xAAA555#24 = true ∧ validTryte 0x554#12 = true ∧ valB 0x554#12 < 0 := by
  decide +kernel

theorem witness_IncrementAndDecrementRipple : validTryte 0xAAA#12 = true ∧ validWord 0x000000#24 = true := by decide +kernel

theorem witness_AdditionAndSubtractionWrap : validTryte 0xAAA#12 = true ∧ validTryte 0x556#12 = true := by decide +kernel

theorem witness_ComparisonAndSign : validTryte 0x000#12 = true ∧ validTryte 0xAAA#12 = true ∧ validWord 0xAAAAAA#24 = true ∧
    compareB 0x000#12 0xAAA#12 = .lt := by decide +kernel

theorem witness_ShiftLeftMultiplies : 5 < 6 ∧ 11 < 12 ∧ validTryte (encB 364) = true ∧ validWord (encU12 531440) = true := by
  decide +kernel

theorem witness_ShiftRightDivides : 5 < 6 ∧ 11 < 12 ∧ validTryte (encB (-364)) = true ∧ validWord (encU12 1) = true := by
  decide +kernel

theorem witness_ShiftCountLimits : 6 ≤ 6 ∧ 12 ≤ 12 ∧ (-1 : Int) < 0 := by decide

theorem witness_LogicWorksTritByTrit : validTryte 0x9A6#12 = true ∧ validTryte 0x569#12 = true ∧
    validWord 0xAAA000#24 = true ∧ testConfig.uwordAndInplaceNoop = false ∧
    ({ testConfig with uwordAndInplaceNoop := true } : Config).uwordAndInplaceNoop = true := by decide +kernel

theorem witness_FlagMasksComputeDirectUpdates : testConfig.tablesOk = true ∧
    (∀ d ∈ [Trit.neg, .zero, .pos], (testConfig.orB.entry d.code Trit.neg.code).map Fin.val = some d.code) ∧
    (∀ d ∈ [Trit.neg, .zero, .pos], (testConfig.andB.entry d.code Trit.pos.code).map Fin.val = some d.code) := by
  decide +kernel

theorem witness_DefaultLogicLaws : validTryte 0x2A5#12 = true ∧ validWord 0x2A5555#24 = true := by decide +kernel

theorem witness_CodecWriteReplacesOneTryte : Buffer.wf [(0, 0x12#8), (2, 0x34#8)] = true := by decide

theorem witness_BufferHoldsEveryWindow : 19682 < 19683 ∧ windowByte 19682 + 1 < bufferBytes 19683 := by decide

/-- The first and last address of every region of TEST_CONFIG and their neighbours. -/
theorem witness_AddressDecodingOutcomes : testConfig.regionsOk = true ∧
    [0, 19682, 19683, 199999, 200000, 200999, 201000, 201099, 201100, 201199, 201200, 531440].map (locate testConfig) =
      [.mapped .ram 0, .mapped .ram 19682, .unmapped, .unmapped, .mapped .fb 0, .mapped .fb 999, .mapped .cit 0,
       .mapped .cit 99, .mapped .pal 0, .mapped .pal 99, .unmapped, .unmapped] := by decide +kernel

theorem witness_UnmappedAccess : locate e0.cfg (valU12 (encU12 19683)) = .unmapped ∧
    locate e0.cfg (valU12 0xAAAAAA#24) = .unmapped := by decide +kernel

theorem witness_MappedRead : locate badByte0.cfg (valU12 0) = .mapped .ram 0 ∧
    validTryte (codecRead (badByte0.mem.get .ram) 0) = false ∧
    locate badByte0.cfg (valU12 (encU12 1)) = .mapped .ram 1 ∧ validTryte (codecRead (badByte0.mem.get .ram) 1) = true := by
  decide +kernel

theorem witness_WriteIsReadBack : e0.mem.wf = true ∧ e0.cell (valU12 (encU12 19682)) ≠ none ∧
    e0.cell (valU12 (encU12 200000)) ≠ none := by decide +kernel

theorem witness_HostBufferAccess : e0.mem.wf = true ∧ 29524 < bufferBytes (regionSize e0.cfg .ram) ∧
    bufferBytes (regionSize e0.cfg .ram) ≤ 29525 := by decide +kernel

theorem witness_DecodeOfEncode : opmapOk defaultOpmap = true ∧
    (Instr.ldaAbs 0x001441#24).wellFormedFor defaultOpmap = true ∧
    encodeFor defaultOpmap (.ldaAbs 0x001441#24) = some [0x041#12, 0x441#12, 0x001#12] := by decide +kernel

theorem witness_EveryInstructionEncodes : (Instr.staAbsX 0xAAAAAA#24).wellFormed = true ∧
    (Instr.invalid 0x555#12).wellFormed = true := by decide +kernel

theorem witness_EncodeOfDecode : decode defaultOpmap [0x400#12, 0x821#12, 0x001#12, 0x240#12] =
    .ok (.jmp 0x001821#24, [0x240#12]) := by decide +kernel

theorem witness_OpcodeTryteDecides : validTryte 0x003#12 = false ∧ validTryte 0x041#12 = true ∧ validTryte 0xAAA#12 = true := by
  decide

theorem witness_SeptemvigesimalLiterals : 26 < 27 ∧ septemDigit 'Q' = some 26 ∧ septemDigit '9' = some 9 ∧
    septemDigit 'A' = some 10 := by decide

theorem witness_FlagRegisterLayout : Flags.unpack 0x569#12 = some resetFlags ∧ Flags.unpack 0x555#12 = none := by
  decide +kernel

/-- An image with one listed byte in the last place of RAM and one in a device buffer. -/
def image : Memory := { ram := [(29524, 0x0A#8)], fb := [(0, 0x01#8)], cit := [], pal := [] }

theorem witness_ConstructionIsReset : testConfig.admissible = true ∧ image.wf = true ∧ image.fits testConfig = true := by
  decide +kernel

/-- A configuration for every way to break R62. -/
theorem witness_BadRegionsAreRefused :
    (0 < ({ testConfig with fbBase := 0 } : Config).ramSize ∧ 0 < 0 + testConfig.fbSize) ∧
    (0 < ({ testConfig with citBase := 0 } : Config).ramSize ∧ 0 < 0 + testConfig.citSize) ∧
    (0 < ({ testConfig with palBase := 0 } : Config).ramSize ∧ 0 < 0 + testConfig.palSize) ∧
    (let c := { testConfig with citBase := 200999 }
     c.fbBase ≤ 200999 ∧ 200999 < c.fbBase + c.fbSize ∧ c.citBase ≤ 200999 ∧ 200999 < c.citBase + c.citSize) ∧
    (let c := { testConfig with palBase := 200999 }
     c.fbBase ≤ 200999 ∧ 200999 < c.fbBase + c.fbSize ∧ c.palBase ≤ 200999 ∧ 200999 < c.palBase + c.palSize) ∧
    (let c := { testConfig with palBase := 201099 }
     c.citBase ≤ 201099 ∧ 201099 < c.citBase + c.citSize ∧ c.palBase ≤ 201099 ∧ 201099 < c.palBase + c.palSize) ∧
    531441 < ({ testConfig with ramSize := 531442 } : Config).ramSize ∧
    (let c := { testConfig with fbBase := 531441 }; 531441 < c.fbBase + c.fbSize) ∧
    (let c := { testConfig with citBase := 531441 }; 531441 < c.citBase + c.citSize) ∧
    (let c := { testConfig with palBase := 531441 }; 531441 < c.palBase + c.palSize) := by decide +kernel

/-- With nothing listed in memory every mapped cell is valid. -/
theorem cellsValid_of_empty {s : State} (h : s.mem = Memory.empty) : s.cellsValid := by
  intro v t ht
  unfold State.cell at ht
  cases hl : locate s.cfg v with
  | unmapped => rw [hl] at ht; cases ht
  | mapped b n =>
    rw [hl, h] at ht
    simp only at ht
    have hb : Memory.empty.get b = [] := by cases b <;> rfl
    rw [hb] at ht
    have hz : codecRead [] n = 0x000#12 := by simp [codecRead, window, readByte, unlistedByte]
    rw [hz] at ht
    cases ht
    decide

/-- A state at an instruction boundary in the last cell of RAM, with registers that are not zero. -/
def atEnd : State := { State.reset with a := encB 5, x := encB 3, pc := encU12 19682 }

/-- A state in mid instruction: step 2 of `STA a,X`. -/
def inStore : State := { atEnd with phase := .execute ⟨.st .a .absX, 2⟩ }

theorem good_atEnd : atEnd.Good := ⟨by decide +kernel, cellsValid_of_empty rfl⟩

theorem good_inStore : inStore.Good := ⟨by decide +kernel, cellsValid_of_empty rfl⟩

theorem witness_TickKeepsGood : (atEnd.Good ∧ ∃ t, tick atEnd = .next t) ∧ inStore.Good ∧ ∃ t, tick inStore = .next t :=
  ⟨⟨good_atEnd, next_of_goesOn (by decide +kernel)⟩, good_inStore, next_of_goesOn (by decide +kernel)⟩

theorem witness_StepKeepsGood : (atEnd.Good ∧ ∃ t, step atEnd = .next t) ∧ inStore.Good ∧ ∃ t, step inStore = .next t :=
  ⟨⟨good_atEnd, next_of_goesOn (by decide +kernel)⟩, good_inStore, next_of_goesOn (by decide +kernel)⟩

theorem witness_GoodStatesGoOn : atEnd.Good ∧ inStore.Good := ⟨good_atEnd, good_inStore⟩

theorem witness_ValidImageRunsAreSafe : ∃ s, construct { testConfig with resetPc := encU12 19682 } Memory.empty = .next s ∧
    s.cellsValid :=
  ⟨_, by unfold construct; rw [if_pos (by decide +kernel)], cellsValid_of_empty rfl⟩

theorem witness_ConfigurationIsConstant : (∃ t, tick e0 = .next t) ∧ (∃ t, step e0 = .next t) ∧
    ∃ t, e0.hostWrite .ram 150 0x12#8 = .next t :=
  ⟨next_of_goesOn (by decide +kernel), next_of_goesOn (by decide +kernel), next_of_goesOn (by decide +kernel)⟩

/-- E0 with `STA 3000` at 100. -/
def storing : State := put e0 100 [0x050#12, 0x104#12, 0x005#12]

theorem witness_StepIsTheRunOfItsTicks : storing.phase = .fetch ∧
    storing.fetchInstr = .ok (0x050#12, .staAbs 0x005104#24) ∧ opTicks (.st .a .abs) storing.f = 4 ∧
    (∃ u, runTicks 1 storing = .next u) ∧ ∃ u, runTicks 3 storing = .next u :=
  ⟨by decide +kernel, by decide +kernel, by decide +kernel, next_of_goesOn (by decide +kernel),
    next_of_goesOn (by decide +kernel)⟩

theorem witness_FetchTick : storing.phase = .fetch ∧ storing.readU storing.pc = .ok 0x050#12 ∧ badByte150.phase = .fetch ∧
    badByte150.readU badByte150.pc = .error (.tritInvariantViolation (encU12 100)) := by decide +kernel

/-- One instruction of every format. -/
theorem witness_StepRunsTheDecodedInstruction :
    (storing.phase = .fetch ∧ storing.readU storing.pc = .ok 0x050#12 ∧
      (opOf storing.cfg.opmap (valU 0x050#12)).format = .abs3 ∧
      storing.readU (encU12 (valU12 storing.pc + 1)) = .ok 0x104#12 ∧
      storing.readU (encU12 (valU12 storing.pc + 2)) = .ok 0x005#12 ∧
      decode storing.cfg.opmap [0x050#12, 0x104#12, 0x005#12] = .ok (.staAbs 0x005104#24, [])) ∧
    (let s := put e0 100 [0x040#12, 0x595#12]
     s.readU s.pc = .ok 0x040#12 ∧ (opOf s.cfg.opmap (valU 0x040#12)).format = .imm ∧
      s.rdM (encU12 (valU12 s.pc + 1)) = .ok 0x595#12 ∧
      decode s.cfg.opmap [0x040#12, 0x595#12, 0x000#12] = .ok (.ldaImm 0x595#12, [0x000#12])) ∧
    (let s := put e0 100 [0x444#12, 0x556#12]
     s.readU s.pc = .ok 0x444#12 ∧ (opOf s.cfg.opmap (valU 0x444#12)).format = .immb ∧
      s.readB (encU12 (valU12 s.pc + 1)) = .ok 0x556#12 ∧
      decode s.cfg.opmap [0x444#12, 0x556#12, 0x000#12] = .ok (.setbu 0x556#12, [0x000#12])) ∧
    (let s := put e0 100 [0x240#12]
     s.readU s.pc = .ok 0x240#12 ∧ (opOf s.cfg.opmap (valU 0x240#12)).format = .imp ∧
      decode s.cfg.opmap [0x240#12, 0x000#12, 0x000#12] = .ok (.tac, [0x000#12, 0x000#12])) := by decide +kernel

theorem witness_UnassignedOpcodeIsNoOp : e0.phase = .fetch ∧ e0.readU e0.pc = .ok 0x000#12 ∧
    ∀ e ∈ e0.cfg.opmap, e.1 ≠ valU 0x000#12 := by decide +kernel

/-- The fault of a tick, of a step at a boundary and in mid instruction, and of a meaning. -/
theorem witness_EveryFaultIsABadCell :
    tick badByte150 = .fault (.tritInvariantViolation (encU12 100)) ∧
    step badByte150 = .fault (.tritInvariantViolation (encU12 100)) ∧
    step { badByte150 with al := encU12 100, phase := .execute ⟨.ld .a (.mem .absX), 4⟩ } =
      .fault (.tritInvariantViolation (encU12 100)) ∧
    exec (.ldaAbs (encU12 100)) badByte150 = .fault (.tritInvariantViolation (encU12 100)) :=
  ⟨fault_of_faultsAt (by decide +kernel), fault_of_faultsAt (by decide +kernel), fault_of_faultsAt (by decide +kernel),
    fault_of_faultsAt (by decide +kernel)⟩

theorem witness_NothingIsRefused : e0.phaseOk = true ∧ inStore.phaseOk = true := by decide +kernel

theorem witness_EveryInstructionCompletes : atEnd.cellsValid ∧ ∀ r m, (Instr.staAbs 0).op ≠ .ld r (.mem m) :=
  ⟨cellsValid_of_empty rfl, fun _ _ h => by cases h⟩

/-- E0 in unbalanced mode. -/
def unbalanced : State := { e0 with f := { e0.f with bu := .unbalanced } }

theorem witness_LoadImmediateResult : e0.f.bu = .balanced ∧ unbalanced.f.bu = .unbalanced := by decide +kernel

/-- The pointer at 1500, and the two ways a pointer read can stop. -/
theorem witness_EffectiveAddresses : e0.readU (encU12 1500) = .ok 0x882#12 ∧
    e0.readU (encU12 (valU12 (encU12 1500) + 1)) = .ok 0x002#12 ∧
    badByte150.readU (encU12 100) = .error (.tritInvariantViolation (encU12 100)) ∧
    badByte150.readU (encU12 99) = .ok 0x000#12 ∧
    badByte150.readU (encU12 (valU12 (encU12 99) + 1)) = .error (.tritInvariantViolation (encU12 100)) := by decide +kernel

theorem witness_LoadMemoryResult : e0.loadAddress .indX (encU12 1500) = .ok (encU12 2003) ∧
    e0.f.bu = .balanced ∧ e0.readB (encU12 2003) = .ok 0x1AA#12 ∧
    unbalanced.loadAddress .abs (encU12 1000) = .ok (encU12 1000) ∧ unbalanced.f.bu = .unbalanced ∧
    unbalanced.readU (encU12 1000) = .ok 0x424#12 ∧
    badByte150.loadAddress .ind (encU12 99) = .error (.tritInvariantViolation (encU12 100)) ∧
    badByte150.loadAddress .abs (encU12 100) = .ok (encU12 100) ∧
    badByte150.rdM (encU12 100) = .error (.tritInvariantViolation (encU12 100)) := by decide +kernel

/-- A mapped and an unmapped effective address. -/
theorem witness_StoreResult : e0.mem.wf = true ∧ e0.cell (valU12 (e0.storeAddress .absX (encU12 19679))) ≠ none ∧
    e0.cell (valU12 (e0.storeAddress .absX (encU12 19680))) = none := by decide +kernel

theorem witness_BalancedAddResult : e0.f.bu = .balanced := by decide +kernel

theorem witness_UnbalancedAddResult : unbalanced.f.bu = .unbalanced := by decide +kernel

theorem witness_StackPointerTransfers : validTryte e0.x = true ∧ validTryte e0.y = true ∧ validWord e0.sp = true := by
  decide +kernel

theorem witness_JumpAndBranchResult : (e0.f.s == .zero) = true ∧ (e0.f.s == .pos) = false ∧ (e0.f.ou != .pos) = true ∧
    (e0.f.cb != .zero) = false := by decide +kernel

theorem witness_FlagSetResult : valB (encB 1) = 1 ∧ valB (encB (-1)) = -1 ∧ valB (encB 0) = 0 ∧ valB (encB 2) = 2 ∧
    valB (encB (-2)) = -2 := by decide +kernel

/-- Next states in which each register that the statement speaks of does change. -/
theorem witness_RegisterWriters : ∃ t, exec .tyxsp e0 = .next t ∧ t.sp ≠ e0.sp := by
  refine ⟨_, rfl, ?_⟩
  decide +kernel

theorem witness_FlagWriters : (∃ t, exec (.addc (encB 364)) e0 = .next t) ∧
    ∃ t, exec (.setbu (encB (-1))) e0 = .next t ∧ t.f.bu ≠ e0.f.bu := by
  refine ⟨next_of_goesOn (by decide +kernel), _, rfl, ?_⟩
  decide +kernel

/-- The jump, a branch whose condition holds and one whose condition does not, a form of one tryte and one of three. -/
theorem witness_ProgramCounterAfterInstruction : (∃ t, exec (.jmp 0xAAAAAA#24) e0 = .next t) ∧
    condHolds ⟨.s, .zero, false⟩ e0.f = true ∧ (∃ t, exec (.bzer 0x001821#24) e0 = .next t) ∧
    condHolds ⟨.s, .pos, false⟩ e0.f = false ∧ (∃ t, exec (.bpos 0x001821#24) e0 = .next t) ∧
    (∃ t, exec .tac e0 = .next t) ∧ ∃ t, exec (.ldaInd (encU12 1500)) e0 = .next t :=
  ⟨next_of_goesOn (by decide +kernel), by decide +kernel, next_of_goesOn (by decide +kernel), by decide +kernel,
    next_of_goesOn (by decide +kernel), next_of_goesOn (by decide +kernel), next_of_goesOn (by decide +kernel)⟩

theorem witness_OnlyStoresWriteMemory : e0.mem.wf = true ∧ (∃ t, exec (.staAbs (encU12 3000)) e0 = .next t) ∧
    (Instr.staAbs (encU12 3000)).operands = [0x104#12, 0x005#12] ∧ ∃ t, exec (.ldaAbs (encU12 1000)) e0 = .next t :=
  ⟨by decide +kernel, next_of_goesOn (by decide +kernel), by decide +kernel, next_of_goesOn (by decide +kernel)⟩

end Sys2Proof.Tests
end

section
/-!
PROOF. The step against the normative tick (R7, R170 to R174, R188).

The chain of an instruction is first run as one computation, `State.runSteps`, which no PHASE and no UOP enters. The ticks up to
the next boundary are `runSteps` (`tickToBoundary_eq_finish_runSteps`), and so is the meaning `exec` of the instruction fetched
(`execRead_readInstr`), form by form. How many ticks that takes is a fact about PHASE alone: each tick moves UOP one step on
until tick number `opTicks` (`tick_execute_next`).
-/

namespace Sys2Proof.Machine

variable (s : State)

/-! ## PHASE does not enter a statement -/

/-- The state with PHASE and UOP replaced. -/
def State.withPhase (p : Phase) : State := { s with phase := p }

@[simp] theorem withPhase_phase (p : Phase) : (s.withPhase p).phase = p := rfl
@[simp] theorem withPhase_cfg (p : Phase) : (s.withPhase p).cfg = s.cfg := rfl
@[simp] theorem withPhase_f (p : Phase) : (s.withPhase p).f = s.f := rfl
@[simp] theorem withPhase_pc (p : Phase) : (s.withPhase p).pc = s.pc := rfl
@[simp] theorem withPhase_al (p : Phase) : (s.withPhase p).al = s.al := rfl
@[simp] theorem withPhase_readU (p : Phase) (a : UWord) : (s.withPhase p).readU a = s.readU a := readU_congr s rfl rfl a
@[simp] theorem withPhase_readB (p : Phase) (a : UWord) : (s.withPhase p).readB a = s.readB a := readOr_congr rfl rfl _ a
@[simp] theorem withPhase_rdM (p : Phase) (a : UWord) : (s.withPhase p).rdM a = s.rdM a := rdM_congr rfl rfl rfl a

@[simp] theorem withPhase_writeCell (p : Phase) (a : UWord) (t : Tryte) :
    (s.withPhase p).writeCell a t = (s.writeCell a t).withPhase p := by
  simp only [State.writeCell, withPhase_cfg]
  cases locate s.cfg (valU12 a) <;> rfl

@[simp] theorem withPhase_reg (p : Phase) (r : Reg) : (s.withPhase p).reg r = s.reg r := by cases r <;> rfl

theorem withPhase_loadDatum (p : Phase) (r : Reg) (b : Tryte) :
    (s.withPhase p).loadDatum r b = (s.loadDatum r b).withPhase p := by cases r <;> rfl

theorem withPhase_storeAccess (p : Phase) (r : Reg) :
    (s.withPhase p).storeAccess r = (s.storeAccess r).withPhase p := by
  rw [storeAccess_eq, storeAccess_eq, withPhase_reg]
  exact withPhase_writeCell { s with db := toBus s.f.bu (s.reg r) } p s.al (toBus s.f.bu (s.reg r))

/-- The end of an instruction sees no PHASE. -/
theorem finish_map_withPhase (p : Phase) (r : Except Fault State) : finish (r.map (·.withPhase p)) = finish r := by
  cases r <;> rfl

/-- A read whose use commutes with a change of PHASE. -/
theorem bind_withPhase {α : Type} {p : Phase} {x : Except Fault α} {g g' : α → Except Fault State}
    (h : ∀ a, g' a = (g a).map (·.withPhase p)) : (x >>= g') = (x >>= g).map (·.withPhase p) := by
  cases x with
  | error e => rfl
  | ok a => exact h a

/-- A statement runs alike in every PHASE and leaves PHASE alone. -/
theorem runPrim_withPhase (p : Phase) (q : Prim) : (s.withPhase p).runPrim q = (s.runPrim q).map (·.withPhase p) := by
  cases q with
  | test | hiset | jump | addD | spLow | spHigh | xFromSp | yFromSp => rfl
  | index r => cases r <;> rfl
  | copy t => cases t <;> rfl
  | store r => exact congrArg Except.ok (withPhase_storeAccess s p r)
  | opread | loread | pointerLow | pointerHigh =>
    simp only [State.runPrim, State.pointerLow, State.pointerHigh, withPhase_readU, withPhase_pc, withPhase_al]
    exact bind_withPhase fun _ => rfl
  | load r =>
    simp only [State.runPrim, State.loadAccess, withPhase_rdM, withPhase_al]
    exact bind_withPhase fun b => congrArg Except.ok (withPhase_loadDatum s p r b)
  | loadImm r =>
    simp only [State.runPrim, withPhase_rdM, withPhase_pc]
    exact bind_withPhase fun b => congrArg Except.ok (withPhase_loadDatum (s.takeTryte b) p r b)
  | addImm | flagImm =>
    simp only [State.runPrim, withPhase_rdM, withPhase_readB, withPhase_pc]
    exact bind_withPhase fun _ => rfl

theorem runPrims_withPhase (p : Phase) (ps : List Prim) :
    (s.withPhase p).runPrims ps = (s.runPrims ps).map (·.withPhase p) := by
  induction ps generalizing s with
  | nil => rfl
  | cons q rest ih =>
    simp only [State.runPrims, runPrim_withPhase]
    cases s.runPrim q with
    | error e => rfl
    | ok t => exact ih t

theorem runPrims_append (ps qs : List Prim) : s.runPrims (ps ++ qs) = (s.runPrims ps >>= (·.runPrims qs)) := by
  induction ps generalizing s with
  | nil => rfl
  | cons q rest ih => simp only [List.cons_append, State.runPrims, ih, bind_assoc]

/-! ## A chain run as one computation -/

/-- The steps of a chain one after the other, up to the first with a failed branch test (R172, R301). -/
def State.runSteps (s : State) : List (List Prim) → Except Fault State
  | [] => .ok s
  | ps :: rest => do
    let t ← s.runPrims ps
    if ps.any (·.stops t.f) then .ok t else t.runSteps rest

theorem runSteps_withPhase (p : Phase) (l : List (List Prim)) :
    (s.withPhase p).runSteps l = (s.runSteps l).map (·.withPhase p) := by
  induction l generalizing s with
  | nil => rfl
  | cons ps rest ih =>
    simp only [State.runSteps, runPrims_withPhase]
    cases s.runPrims ps with
    | error e => rfl
    | ok t =>
      change (if ps.any (·.stops t.f) then _ else (t.withPhase p).runSteps rest) = _
      rw [ih]
      simp only [bind, Except.bind]
      split <;> rfl

/-- The fetch tick from a boundary (R171). -/
theorem tick_fetch (h : s.phase = .fetch) : tick s = tickOutcome s.fetchTick := by
  rw [tick, h]

/-- The tick at step `k + 1` of a chain: the statements of the step, then PHASE and UOP (R172). -/
theorem tick_execute {o : Op} {k : Nat} (hp : s.phase = .execute ⟨o, k + 1⟩) (hk : k < (opChain o).length) :
    tick s = tickOutcome (do
      let t ← s.runPrims (opChain o)[k]
      .ok (t.withPhase (Uop.nextPhase ⟨o, k + 1⟩ (opChain o)[k] t.f))) := by
  have hprims : Uop.prims ⟨o, k + 1⟩ = some (opChain o)[k] := List.getElem?_eq_getElem hk
  rw [tick, hp]
  simp only [hprims]
  rfl

/-- From step `k + 1` of a chain, the ticks to the boundary run the rest of the chain and end the instruction. -/
theorem tickToBoundary_eq_finish_runSteps (o : Op) (n k : Nat) (hp : s.phase = .execute ⟨o, k + 1⟩)
    (hk : k < (opChain o).length) (hn : (opChain o).length ≤ k + n) :
    tickToBoundary n s = finish (s.runSteps ((opChain o).drop k)) := by
  induction n generalizing s k with
  | zero => omega
  | succ n ih =>
    rw [List.drop_eq_getElem_cons hk, State.runSteps, tickToBoundary, tick_execute s hp hk]
    cases s.runPrims (opChain o)[k] with
    | error e => rfl
    | ok t =>
      simp only [bind, Except.bind, tickOutcome, withPhase_phase, Uop.nextPhase]
      by_cases hstop : (opChain o)[k].any (·.stops t.f) = true
      · simp only [hstop, Bool.or_true, if_true]
        rfl
      · by_cases hlast : (opChain o).length ≤ k + 1
        · have hdrop : (opChain o).drop (k + 1) = [] := List.drop_eq_nil_of_le hlast
          simp only [hstop, hlast, hdrop, decide_true, Bool.true_or, if_true]
          rfl
        · simp only [hstop, hlast, decide_false, Bool.or_self, Bool.false_eq_true, if_false, reduceCtorEq]
          rw [ih (t.withPhase (.execute ⟨o, k + 1 + 1⟩)) (k + 1) rfl (by omega) (by omega), runSteps_withPhase,
            finish_map_withPhase]

theorem branch_or_not (o : Op) : (∃ c, o = .branch c) ∨ ∀ c, o ≠ .branch c := by
  rw [← not_exists]
  exact em _

/-- Only a branch has a test that can end it early (R301). -/
theorem not_stops_of_not_branch {o : Op} (ho : ∀ c, o ≠ .branch c) :
    ∀ ps ∈ opChain o, ∀ f, ps.any (·.stops f) = false := by
  cases o with
  | branch c => exact absurd rfl (ho c)
  | ld r m => cases m with
    | imm => simp [opChain, Prim.stops]
    | mem m => cases m <;> simp [opChain, addressChain, Prim.stops]
  | st r m => cases m <;> simp [opChain, stAddr, addressChain, Prim.stops]
  | add src k => cases src <;> simp [opChain, Prim.stops]
  | _ => simp [opChain, Prim.stops]

/-- A chain without a test runs all its statements in order. -/
theorem runSteps_eq_runPrims {l : List (List Prim)} (hl : ∀ ps ∈ l, ∀ f, ps.any (·.stops f) = false) :
    s.runSteps l = s.runPrims l.flatten := by
  induction l generalizing s with
  | nil => rfl
  | cons ps rest ih =>
    obtain ⟨hps, hrest⟩ := List.forall_mem_cons.mp hl
    simp only [State.runSteps, hps, Bool.false_eq_true, if_false, List.flatten_cons, runPrims_append, ih _ hrest]

/-- Every chain has a step, and at most six (R188). -/
theorem opChain_length (o : Op) : 0 < (opChain o).length ∧ (opChain o).length ≤ 6 := by
  cases o with
  | ld r m => cases m with
    | imm => simp [opChain]
    | mem m => cases m <;> simp [opChain, addressChain]
  | st r m => cases m <;> simp [opChain, stAddr, addressChain]
  | add src k => cases src <;> simp [opChain]
  | _ => simp [opChain]

/-! ## The meaning of an instruction is its chain -/

theorem exec_ld_imm (r : Reg) (v : Tryte) (w : UWord) : exec (.ld r .imm v w) s = loadImmediate r v s := by
  cases r <;> rfl

theorem exec_ld_mem (r : Reg) (m : AddrMode) (v : Tryte) (w : UWord) :
    exec (.ld r (.mem m) v w) s = loadMemory r m w s := by
  cases r <;> cases m <;> rfl

theorem exec_st (r : Reg) (m : StMode) (w : UWord) : exec (.st r m w) s = storeMemory r m w s := by
  cases r <;> cases m <;> rfl

theorem exec_adds_imm (k : AddKind) (v : Tryte) : exec (.adds .imm k v) s = addImmediate k v s := by
  cases k <;> rfl

theorem exec_adds_regD (k : AddKind) (v : Tryte) : exec (.adds .regD k v) s = addData k s := by
  cases k <;> rfl

theorem exec_xfer (t : Xfer) : exec (.xfer t) s = transfer t s := by
  cases t <;> rfl

theorem exec_branch (c : Cond) (w : UWord) : exec (.branch c w) s = branchOn c w s := by
  obtain ⟨which, value, negated⟩ := c
  cases which <;> cases value <;> cases negated <;> rfl

theorem exec_setFlag (f : FlagSel) (v : Tryte) : exec (.setFlag f v) s = flagSet f v s := by
  cases f <;> rfl

/-- The instruction that operation `o` makes of the trytes from PC on, read as `State.fetchInstr` reads them. -/
def State.readInstr (o : Op) (t0 : Tryte) : Except Fault Instr :=
  match o.format with
  | .imp => .ok (Instr.ofOp o t0 0 0)
  | .imm => do
    let v ← s.rdM s.pc
    .ok (Instr.ofOp o t0 v 0)
  | .immb => do
    let v ← s.readB s.pc
    .ok (Instr.ofOp o t0 v 0)
  | .abs3 => do
    let lo ← s.readU s.pc
    let hi ← s.readU (incW s.pc)
    .ok (Instr.ofOp o t0 lo hi)

/-- The meaning of an instruction whose operands were read, or the fault of the read. -/
def State.execRead : Except Fault Instr → Host.Outcome State Fault Refusal
  | .ok i => exec i s
  | .error e => .fault e

@[simp] theorem readU_takeTryte (t : Tryte) (a : UWord) : (s.takeTryte t).readU a = s.readU a :=
  readU_congr s (takeTryte_cfg s t) (takeTryte_mem s t) a

theorem ok_bind {α β : Type} (a : α) (g : α → Except Fault β) : ((.ok a : Except Fault α) >>= g) = g a := rfl

theorem bind_ok_self {α : Type} (x : Except Fault α) : (x >>= fun a => .ok a) = x := bind_pure x

/-- The three statements that take the operand word of an ABS3 form (R176 to R178). -/
theorem runPrims_operandWord (l : List Prim) :
    s.runPrims (.opread :: .loread :: .hiset :: l) = (do
      let lo ← s.readU s.pc
      let hi ← s.readU (incW s.pc)
      (s.takeWord (wordOf lo hi)).runPrims l) := by
  simp only [State.runPrims, State.runPrim, State.takeWord, bind_assoc, ok_bind, readU_takeTryte, takeTryte_pc,
    loTryte_wordOf, hiTryte_wordOf]

/-- The chain of an addressing mode: the operand word, the effective address in AL, the access (R181 to R184). -/
theorem runPrims_addressChain (m : AddrMode) (q : Prim) :
    s.runPrims (addressChain m q).flatten = (do
      let lo ← s.readU s.pc
      let hi ← s.readU (incW s.pc)
      let t ← s.latchAddress m (wordOf lo hi)
      t.runPrim q) := by
  cases m <;>
    simp only [addressChain, List.flatten_cons, List.flatten_nil, List.cons_append, List.nil_append,
      runPrims_operandWord, State.runPrims, State.runPrim, State.latchAddress, State.followPointer, bind_assoc, ok_bind,
      bind_ok_self]

/-- An instruction `mk v` of one operand tryte, which `x` reads: its chain is the one statement `q` (R180, R330). -/
theorem execRead_oneOperand (x : Except Fault Tryte) (q : Prim) (mk : Tryte → Instr) {g : Tryte → State}
    (hq : s.runPrim q = (x >>= fun v => .ok (g v))) (hmk : ∀ v, exec (mk v) s = finish (.ok (g v))) :
    s.execRead (x >>= fun v => .ok (mk v)) = finish (s.runPrims [q]) := by
  rw [State.runPrims, hq]
  cases x with
  | error e => rfl
  | ok v => exact hmk v

/-- A memory instruction `mk lo hi`: its chain is the operand word, the address of its mode, and the access `q`. -/
theorem execRead_addressChain (m : AddrMode) (q : Prim) (mk : Tryte → Tryte → Instr)
    (hmk : ∀ lo hi, exec (mk lo hi) s = finish (s.latchAddress m (wordOf lo hi) >>= (·.runPrim q))) :
    s.execRead (do
      let lo ← s.readU s.pc
      let hi ← s.readU (incW s.pc)
      .ok (mk lo hi)) = finish (s.runPrims (addressChain m q).flatten) := by
  rw [runPrims_addressChain]
  cases s.readU s.pc with
  | error e => rfl
  | ok lo =>
    cases s.readU (incW s.pc) with
    | error e => rfl
    | ok hi => exact hmk lo hi

/-- A branch: its test stops the chain exactly where the meaning leaves PC behind the operand word (R301). -/
theorem execRead_readInstr_branch (c : Cond) (t0 : Tryte) :
    s.execRead (s.readInstr (.branch c) t0) = finish (s.runSteps (opChain (.branch c))) := by
  simp only [State.readInstr, Op.format, opChain, Instr.ofOp, State.runSteps, State.runPrims, State.runPrim, bind_assoc,
    ok_bind, List.any_cons, List.any_nil, Prim.stops, Bool.or_false, Bool.false_or, Bool.false_eq_true, if_false,
    readU_takeTryte, takeTryte_pc, takeHigh_f, takeTryte_f]
  cases s.readU s.pc with
  | error e => rfl
  | ok lo =>
    cases s.readU (incW s.pc) with
    | error e => rfl
    | ok hi =>
      simp only [ok_bind, State.execRead, exec_branch, branchOn, loTryte_wordOf, hiTryte_wordOf, takeHigh_f, takeTryte_f]
      cases condHolds c s.f <;> rfl

/-- From the state after the fetch tick, reading the operands and running the meaning is running the chain (R180 to R185,
R263 to R336): the operands are read in the order of the ticks, so the first bad tryte stops both. -/
theorem execRead_readInstr (o : Op) (t0 : Tryte) :
    s.execRead (s.readInstr o t0) = finish (s.runSteps (opChain o)) := by
  obtain ⟨c, rfl⟩ | ho := branch_or_not o
  · exact execRead_readInstr_branch s c t0
  rw [runSteps_eq_runPrims s (not_stops_of_not_branch ho)]
  cases o with
  | branch c => exact absurd rfl (ho c)
  | ld r m => cases m with
    | imm =>
      exact execRead_oneOperand s (s.rdM s.pc) (.loadImm r) (fun v => Instr.ofOp (.ld r .imm) t0 v 0) rfl
        fun v => exec_ld_imm s r v _
    | mem m => exact execRead_addressChain s m (.load r) (Instr.ofOp (.ld r (.mem m)) t0) fun _ _ => exec_ld_mem s r m _ _
  | st r m => exact execRead_addressChain s (stAddr m) (.store r) (Instr.ofOp (.st r m) t0) fun _ _ => exec_st s r m _
  | add src k => cases src with
    | imm => exact execRead_oneOperand s (s.rdM s.pc) (.addImm k) (.adds .imm k) rfl fun v => exec_adds_imm s k v
    | regD => exact exec_adds_regD s k _
  | xfer t => exact exec_xfer s t
  | tyxsp => rfl
  | tspyx => rfl
  | invalid => rfl
  | jmp =>
    change _ = finish (s.runPrims [.opread, .loread, .hiset, .jump])
    rw [runPrims_operandWord]
    change s.execRead (s.readU s.pc >>= _) = _
    cases s.readU s.pc with
    | error e => rfl
    | ok lo => cases s.readU (incW s.pc) <;> rfl
  | setFlag f => exact execRead_oneOperand s (s.readB s.pc) (.flagImm f) (.setFlag f) rfl fun v => exec_setFlag s f v

/-- From a boundary where the opcode tryte can be read, the step is the chain run from the state after the fetch tick. -/
theorem stepInstr_eq_finish_runSteps {t0 : Tryte} (h : s.readU s.pc = .ok t0) :
    stepInstr s = finish ((s.afterFetch t0).runSteps (opChain (opOf s.cfg.opmap (valU t0)))) := by
  have hU : ∀ a, (s.afterFetch t0).readU a = s.readU a := readU_congr s (afterFetch_cfg s t0) (afterFetch_mem s t0)
  have hB : ∀ a, (s.afterFetch t0).readB a = s.readB a :=
    readOr_congr (afterFetch_cfg s t0) (afterFetch_mem s t0) _
  have hM : ∀ a, (s.afterFetch t0).rdM a = s.rdM a :=
    rdM_congr (afterFetch_cfg s t0) (afterFetch_mem s t0) (congrArg Flags.bu (afterFetch_f s t0))
  rw [← execRead_readInstr _ _ t0]
  simp only [stepInstr, State.fetchInstr, State.readInstr, h, ok_bind, hU, hB, hM, afterFetch_pc]
  cases (opOf s.cfg.opmap (valU t0)).format with
  | imp => rfl
  | imm => cases s.rdM (incW s.pc) <;> rfl
  | immb => cases s.readB (incW s.pc) <;> rfl
  | abs3 =>
    cases s.readU (incW s.pc) with
    | error e => rfl
    | ok lo => cases s.readU (incW (incW s.pc)) <;> rfl

theorem stepInstr_of_readU_error {e : Fault} (h : s.readU s.pc = .error e) : stepInstr s = .fault e := by
  rw [stepInstr, State.fetchInstr, h]
  rfl

/-- The step from a boundary is the run of ticks to the next one (R7, R174). -/
theorem step_eq_tickToBoundary (hs : s.phase = .fetch) : step s = tickToBoundary maxTicks s := by
  rw [step, hs, maxTicks, tickToBoundary, tick_fetch s hs, State.fetchTick]
  cases h : s.readU s.pc with
  | error e => exact stepInstr_of_readU_error s h
  | ok t0 =>
    have hlen := opChain_length (opOf s.cfg.opmap (valU t0))
    have hrun := tickToBoundary_eq_finish_runSteps _ _ 6 0 (afterFetch_phase s t0) hlen.1 (by omega)
    exact (stepInstr_eq_finish_runSteps s h).trans hrun.symm

/-! ## How many ticks an instruction takes -/

theorem opTicks_of_not_branch {o : Op} (ho : ∀ c, o ≠ .branch c) (f : Flags) : opTicks o f = 1 + (opChain o).length := by
  cases o with
  | branch c => exact absurd rfl (ho c)
  | _ => rfl

theorem opTicks_bounds (o : Op) (f : Flags) : 1 < opTicks o f ∧ opTicks o f ≤ 1 + (opChain o).length := by
  obtain ⟨c, rfl⟩ | ho := branch_or_not o
  · simp only [opTicks, opChain]
    split <;> simp
  · have := opChain_length o
    rw [opTicks_of_not_branch ho]
    omega

/-- A branch ends at its second step where its test fails, and at its third otherwise (R301). -/
theorem nextPhase_branch (c : Cond) (k : Nat) (f : Flags) (hk : k < (opChain (.branch c)).length)
    (h : k + 1 < opTicks (.branch c) f) :
    Uop.nextPhase ⟨.branch c, k + 1⟩ (opChain (.branch c))[k] f =
      if k + 2 = opTicks (.branch c) f then .fetch else .execute ⟨.branch c, k + 2⟩ := by
  cases hc : condHolds c f with
  | true =>
    have hk3 : k < 3 := hk
    interval_cases k <;> simp [Uop.nextPhase, opChain, opTicks, Prim.stops, hc]
  | false =>
    rw [opTicks, hc] at h
    have hk2 : k < 2 := Nat.lt_of_succ_lt_succ h
    interval_cases k <;> simp [Uop.nextPhase, opChain, opTicks, Prim.stops, hc]

/-- PHASE and UOP after step `k + 1`: Fetch where `opTicks` says that the instruction is over (R172, R301). -/
theorem nextPhase_eq (o : Op) (k : Nat) (f : Flags) (hk : k < (opChain o).length) (h : k + 1 < opTicks o f) :
    Uop.nextPhase ⟨o, k + 1⟩ (opChain o)[k] f =
      if k + 2 = opTicks o f then .fetch else .execute ⟨o, k + 2⟩ := by
  obtain ⟨c, rfl⟩ | ho := branch_or_not o
  · exact nextPhase_branch c k f hk h
  · rw [opTicks_of_not_branch ho, Uop.nextPhase, not_stops_of_not_branch ho _ (List.getElem_mem hk)]
    simp only [Bool.or_false, decide_eq_true_eq]
    congr 1
    exact propext (by omega)

/-- A branch writes no flag (R301). -/
theorem branch_runPrims_f {c : Cond} {ps : List Prim} (hps : ps ∈ opChain (.branch c)) {t : State}
    (ht : s.runPrims ps = .ok t) : t.f = s.f := by
  simp only [opChain, List.mem_cons, List.not_mem_nil, or_false] at hps
  obtain rfl | rfl | rfl := hps
  · obtain ⟨u, hu, ht⟩ := bind_ok.mp ht
    obtain ⟨v, -, hu⟩ := bind_ok.mp hu
    cases hu
    cases ht
    exact takeTryte_f s v
  · obtain ⟨u, hu, ht⟩ := bind_ok.mp ht
    obtain ⟨v, -, hu⟩ := bind_ok.mp hu
    cases hu
    cases ht
    exact takeHigh_f s v
  · cases ht
    rfl

/-- A branch writes no flag, and the ticks of no other instruction depend on the flags: `opTicks` stays as it was at the fetch. -/
theorem opTicks_runPrims {o : Op} {ps : List Prim} (hps : ps ∈ opChain o) {t : State} (ht : s.runPrims ps = .ok t) :
    opTicks o t.f = opTicks o s.f := by
  obtain ⟨c, rfl⟩ | ho := branch_or_not o
  · rw [branch_runPrims_f s hps ht]
  · rw [opTicks_of_not_branch ho, opTicks_of_not_branch ho]

/-- What a tick in mid instruction does to PHASE and UOP, counted in `opTicks`. -/
theorem tick_execute_next {o : Op} {k : Nat} {t : State} (hp : s.phase = .execute ⟨o, k + 1⟩)
    (h : k + 1 < opTicks o s.f) (ht : tick s = .next t) :
    opTicks o t.f = opTicks o s.f ∧
      t.phase = if k + 2 = opTicks o s.f then .fetch else .execute ⟨o, k + 2⟩ := by
  have hk : k < (opChain o).length := by have := (opTicks_bounds o s.f).2; omega
  rw [tick_execute s hp hk] at ht
  cases hr : s.runPrims (opChain o)[k] with
  | error e => rw [hr] at ht; cases ht
  | ok u =>
    rw [hr] at ht
    cases ht
    have hu : opTicks o u.f = opTicks o s.f := opTicks_runPrims s (List.getElem_mem hk) hr
    exact ⟨hu, by rw [withPhase_phase, nextPhase_eq o k u.f hk (hu ▸ h), hu]⟩

/-- While fewer ticks than `opTicks` have passed since the boundary, UOP counts them. -/
theorem runTicks_execute_phase {o : Op} {k j : Nat} {u : State} (hp : s.phase = .execute ⟨o, k + 1⟩)
    (hj : k + 1 + j < opTicks o s.f) (hu : runTicks j s = .next u) : u.phase = .execute ⟨o, k + 1 + j⟩ := by
  induction j generalizing s k with
  | zero => cases hu; exact hp
  | succ j ih =>
    rw [runTicks] at hu
    cases ht : tick s with
    | fault e => rw [ht] at hu; cases hu
    | refused r => rw [ht] at hu; cases hu
    | next t =>
      rw [ht] at hu
      obtain ⟨hf, hph⟩ := tick_execute_next s hp (by omega) ht
      rw [if_neg (by omega)] at hph
      rw [ih t hph (by omega) hu]
      congr 2
      omega

/-- With `m + 1` ticks to go, the run to the boundary is the run of `m + 1` ticks. -/
theorem tickToBoundary_eq_runTicks {o : Op} (m n k : Nat) (hp : s.phase = .execute ⟨o, k + 1⟩)
    (hm : k + 1 + (m + 1) = opTicks o s.f) (hn : m < n) : tickToBoundary n s = runTicks (m + 1) s := by
  induction m generalizing s n k with
  | zero =>
    obtain ⟨n, rfl⟩ := Nat.exists_eq_add_of_lt hn
    rw [runTicks, tickToBoundary]
    cases ht : tick s with
    | fault e => rfl
    | refused r => rfl
    | next t =>
      have hph := (tick_execute_next s hp (by omega) ht).2
      rw [if_pos (by omega)] at hph
      exact if_pos hph
  | succ m ih =>
    obtain ⟨n, rfl⟩ : ∃ n', n = n' + 1 := ⟨n - 1, by omega⟩
    rw [runTicks, tickToBoundary]
    cases ht : tick s with
    | fault e => rfl
    | refused r => rfl
    | next t =>
      obtain ⟨hf, hph⟩ := tick_execute_next s hp (by omega) ht
      rw [if_neg (by omega)] at hph
      have hne : t.phase ≠ .fetch := by rw [hph]; exact Phase.noConfusion
      exact (if_neg hne).trans (ih t n (k + 1) hph (by omega) (by omega))

theorem op_ofOp (o : Op) (t0 v1 v2 : Tryte) : (Instr.ofOp o t0 v1 v2).op = o := by
  cases o with
  | ld r m => exact op_ld r m v1 _
  | st r m => cases r <;> cases m <;> rfl
  | add src k => exact op_adds src k v1
  | xfer t => exact op_xfer t
  | branch c =>
    obtain ⟨which, value, negated⟩ := c
    cases which <;> cases value <;> cases negated <;> rfl
  | setFlag f => exact op_setFlag f v1
  | _ => rfl

/-- An instruction that can be fetched is the one that the opcode tryte at PC names (R85, R171). -/
theorem fetchInstr_ok {t0 : Tryte} {i : Instr} (h : s.fetchInstr = .ok (t0, i)) :
    s.readU s.pc = .ok t0 ∧ i.op = opOf s.cfg.opmap (valU t0) := by
  obtain ⟨u0, hu0, h⟩ := bind_ok.mp h
  have assembled : ∃ v1 v2, (u0, Instr.ofOp (opOf s.cfg.opmap (valU u0)) u0 v1 v2) = (t0, i) := by
    dsimp only at h
    cases hf : (opOf s.cfg.opmap (valU u0)).format <;> rw [hf] at h
    case imp => exact ⟨_, _, Except.ok.inj h⟩
    case imm | immb =>
      obtain ⟨v, -, h⟩ := bind_ok.mp h
      exact ⟨_, _, Except.ok.inj h⟩
    case abs3 =>
      obtain ⟨lo, -, h⟩ := bind_ok.mp h
      obtain ⟨hi, -, h⟩ := bind_ok.mp h
      exact ⟨_, _, Except.ok.inj h⟩
  obtain ⟨v1, v2, hpair⟩ := assembled
  cases hpair
  exact ⟨hu0, op_ofOp _ _ _ _⟩

/-- Settles O39: step and ticks both run the chain of the instruction fetched, and UOP counts the ticks. -/
theorem stepIsTheRunOfItsTicks : Obligations.StepIsTheRunOfItsTicks := by
  unfold Obligations.StepIsTheRunOfItsTicks
  intro s hs
  refine ⟨step_eq_tickToBoundary s hs, fun t0 i hi => ?_⟩
  obtain ⟨ht0, hop⟩ := fetchInstr_ok s hi
  have htick : tick s = .next (s.afterFetch t0) := by rw [tick_fetch s hs, State.fetchTick, ht0]; rfl
  have hphase : (s.afterFetch t0).phase = .execute ⟨i.op, 0 + 1⟩ := hop ▸ afterFetch_phase s t0
  obtain ⟨hpos, hle⟩ := opTicks_bounds i.op s.f
  have hlen := (opChain_length i.op).2
  refine ⟨?_, fun k u hk hlt hu => ?_⟩
  · obtain ⟨m, hm⟩ : ∃ m, opTicks i.op s.f = m + 1 + 1 := ⟨opTicks i.op s.f - 2, by omega⟩
    have hne : (s.afterFetch t0).phase ≠ .fetch := by rw [hphase]; exact Phase.noConfusion
    rw [step_eq_tickToBoundary s hs, hm, runTicks, maxTicks, tickToBoundary, htick]
    refine (if_neg hne).trans (tickToBoundary_eq_runTicks _ m 6 0 hphase ?_ (by omega))
    rw [afterFetch_f]
    omega
  · obtain ⟨j, rfl⟩ : ∃ j, k = j + 1 := ⟨k - 1, by omega⟩
    rw [runTicks, htick] at hu
    rw [runTicks_execute_phase _ hphase (by rw [afterFetch_f]; omega) hu]
    exact Phase.noConfusion

end Sys2Proof.Machine
end

section
/-!
PROOF. The bits of a buffer and the valid patterns (20_memory.md R52 to R54, 40_alu_numeric.md R104).

Bit `k` of a buffer is `bufferBit buf k`. A codec read takes the twelve bits from `12 n` on and a codec write replaces these and
no other, whatever bytes they lie in; so a cell after a write is the tryte written, or what it was.
-/

namespace Sys2Proof.Machine

/-! ## Valid patterns, field by field -/

/-- A pattern is valid where its low fields and its other fields are (R104). -/
theorem fieldsValid_add (j k p : Nat) :
    fieldsValid (j + k) p = (fieldsValid j p && fieldsValid k (p / 4 ^ j)) := by
  induction j generalizing p with
  | zero => simp [fieldsValid]
  | succ j ih =>
    rw [Nat.add_right_comm]
    simp only [fieldsValid, ih, pow_succ', Nat.div_div_eq_div_mul, Bool.and_assoc]

/-- The fields above the low `k` do not count. -/
theorem fieldsValid_mod (k p : Nat) : fieldsValid k (p % 4 ^ k) = fieldsValid k p := by
  induction k generalizing p with
  | zero => rfl
  | succ k ih =>
    have hlow : p % 4 ^ (k + 1) % 4 = p % 4 := Nat.mod_mod_of_dvd p (dvd_pow_self 4 k.succ_ne_zero)
    have hrest : p % 4 ^ (k + 1) / 4 = p / 4 % 4 ^ k := by rw [pow_succ', Nat.mod_mul_right_div_self]
    simp only [fieldsValid, hlow, hrest, ih]

/-- A word is valid where both its trytes are (R113). -/
theorem validWord_iff (w : UWord) :
    validWord w = true ↔ validTryte (loTryte w) = true ∧ validTryte (hiTryte w) = true := by
  have hlo : (loTryte w).toNat = w.toNat % 4 ^ 6 := by simp [loTryte, BitVec.extractLsb'_toNat]
  have hhi : (hiTryte w).toNat = w.toNat / 4 ^ 6 % 4 ^ 6 := by
    simp [hiTryte, BitVec.extractLsb'_toNat, Nat.shiftRight_eq_div_pow]
  rw [validWord, validTryte, validTryte, hlo, hhi, fieldsValid_mod, fieldsValid_mod, fieldsValid_add 6 6,
    Bool.and_eq_true]

theorem validWord_wordOf {lo hi : Tryte} (hlo : validTryte lo = true) (hhi : validTryte hi = true) :
    validWord (wordOf lo hi) = true := by
  rw [validWord_iff, loTryte_wordOf, hiTryte_wordOf]
  exact ⟨hlo, hhi⟩

/-! ## The codec, bit by bit -/

/-- Bit `k` of a buffer: bit `k % 8` of byte `k / 8` (R52). -/
def bufferBit (buf : Buffer) (k : Nat) : Bool := (readByte buf (k / 8)).getLsbD (k % 8)

/-- The window of a tryte starts at its bit address, rounded down to a byte (R52). -/
theorem windowByte_windowBit (n : Nat) : 8 * windowByte n + windowBit n = 12 * n := by
  unfold windowByte windowBit
  omega

/-- A window starts at bit 0 or bit 4 of its byte (R52). -/
theorem windowBit_le (n : Nat) : windowBit n ≤ 4 := by
  unfold windowBit
  omega

/-- A window shows sixteen bits of the buffer (R53). -/
theorem window_getLsbD (buf : Buffer) (n j : Nat) (hj : j < 16) :
    (window buf n).getLsbD j = bufferBit buf (8 * windowByte n + j) := by
  unfold window bufferBit
  by_cases h8 : j < 8
  · have hbyte : (8 * windowByte n + j) / 8 = windowByte n := by omega
    have hbit : (8 * windowByte n + j) % 8 = j := by omega
    simp [hbyte, hbit, h8, hj]
  · have hbyte : (8 * windowByte n + j) / 8 = windowByte n + 1 := by omega
    have hbit : (8 * windowByte n + j) % 8 = j - 8 := by omega
    have hhigh : (readByte buf (windowByte n)).getLsbD j = false := BitVec.getLsbD_of_ge _ _ (by omega)
    simp [hbyte, hbit, h8, hj, hhigh]

/-- The mask of a tryte has its low twelve bits set. -/
theorem tryteMask_getLsbD (j : Nat) : (0x0FFF#16).getLsbD j = decide (j < 12) := by
  have hmask : 0x0FFF#16 = (BitVec.allOnes 12).setWidth 16 := rfl
  rw [hmask, BitVec.getLsbD_setWidth, BitVec.getLsbD_allOnes, Bool.and_eq_right_iff_imp]
  simp only [decide_eq_true_eq]
  omega

/-- A codec read takes the twelve bits of its tryte (R53). -/
theorem codecRead_getLsbD (buf : Buffer) (n i : Nat) (hi : i < 12) :
    (codecRead buf n).getLsbD i = bufferBit buf (12 * n + i) := by
  have hbit := windowBit_le n
  rw [← windowByte_windowBit, Nat.add_assoc, ← window_getLsbD buf n _ (by omega)]
  simp only [codecRead, BitVec.getLsbD_setWidth, BitVec.getLsbD_and, BitVec.getLsbD_ushiftRight, tryteMask_getLsbD, hi,
    decide_true, Bool.true_and, Bool.and_true]

/-- The window to write: the tryte in its place and every other bit as before (R54). -/
theorem windowWith_getLsbD (buf : Buffer) (n j : Nat) (v : Tryte) (hj : j < 16) :
    (windowWith buf n v).getLsbD j =
      if windowBit n ≤ j ∧ j < windowBit n + 12 then v.getLsbD (j - windowBit n) else (window buf n).getLsbD j := by
  simp only [windowWith, BitVec.getLsbD_or, BitVec.getLsbD_and, BitVec.getLsbD_not, BitVec.getLsbD_shiftLeft,
    BitVec.getLsbD_setWidth, tryteMask_getLsbD, hj, decide_true, Bool.true_and]
  by_cases hlow : j < windowBit n
  · simp [hlow, Nat.not_le.mpr hlow]
  · have hwidth : j - windowBit n < 16 := by omega
    by_cases hin : j < windowBit n + 12
    · have hmask : j - windowBit n < 12 := by omega
      simp [hlow, Nat.not_lt.mp hlow, hin, hmask, hwidth]
    · have hmask : ¬ j - windowBit n < 12 := by omega
      have hout : v.getLsbD (j - windowBit n) = false := BitVec.getLsbD_of_ge _ _ (by omega)
      simp [hin, hmask, hout]

/-- A codec write replaces the bytes of its window by the new window (R54). -/
theorem readByte_codecWrite {buf : Buffer} (hb : Buffer.wf buf = true) (n m : Nat) (v : Tryte) :
    readByte (codecWrite buf n v) m =
      if windowByte n + 1 = m then (windowWith buf n v).extractLsb' 8 8
      else if windowByte n = m then (windowWith buf n v).extractLsb' 0 8 else readByte buf m := by
  rw [codecWrite, readByte_writeByte _ _ _ _ (writeByte_wf _ _ _ hb), readByte_writeByte _ _ _ _ hb]

/-- A codec write replaces the twelve bits of its tryte and no other bit (R54). -/
theorem bufferBit_codecWrite {buf : Buffer} (hb : Buffer.wf buf = true) (n k : Nat) (v : Tryte) :
    bufferBit (codecWrite buf n v) k =
      if 12 * n ≤ k ∧ k < 12 * n + 12 then v.getLsbD (k - 12 * n) else bufferBit buf k := by
  have hplace := windowByte_windowBit n
  have hbit := windowBit_le n
  have inWindow : ∀ j, j < 16 → k = 8 * windowByte n + j → (windowWith buf n v).getLsbD j =
      if 12 * n ≤ k ∧ k < 12 * n + 12 then v.getLsbD (k - 12 * n) else bufferBit buf k := by
    rintro j hj rfl
    have hsub : 8 * windowByte n + j - 12 * n = j - windowBit n := by omega
    rw [windowWith_getLsbD buf n j v hj, window_getLsbD buf n j hj, hsub]
    exact if_congr (by omega) rfl rfl
  have hlt : k % 8 < 8 := Nat.mod_lt _ (by decide)
  rw [bufferBit, readByte_codecWrite hb]
  split
  case isTrue hhigh => simpa [hlt] using inWindow (8 + k % 8) (by omega) (by omega)
  case isFalse =>
    split
    case isTrue hlow => simpa [hlt] using inWindow (k % 8) (by omega) (by omega)
    case isFalse => rw [if_neg (by omega), bufferBit]

/-- A tryte read after a tryte write: the tryte written, or what it was (R54). -/
theorem codecRead_codecWrite {buf : Buffer} (hb : Buffer.wf buf = true) (n m : Nat) (v : Tryte) :
    codecRead (codecWrite buf n v) m = if m = n then v else codecRead buf m := by
  apply BitVec.eq_of_getLsbD_eq
  intro i hi
  rw [codecRead_getLsbD _ _ _ hi, bufferBit_codecWrite hb]
  split
  case isTrue hin =>
    obtain rfl : m = n := by omega
    rw [if_pos rfl, Nat.add_sub_cancel_left]
  case isFalse hout => rw [if_neg (by omega), codecRead_getLsbD _ _ _ hi]

/-! ## Writes stay inside the buffers -/

/-- The window of a tryte of a region lies inside the region's buffer (R52). -/
theorem windowByte_lt_bufferBytes {n size : Nat} (h : n < size) : windowByte n + 1 < bufferBytes size := by
  unfold windowByte bufferBytes
  omega

theorem codecWrite_within {n size : Nat} (h : n < size) (v : Tryte) {buf : Buffer}
    (hb : buf.within (bufferBytes size) = true) : (codecWrite buf n v).within (bufferBytes size) = true := by
  have hw := windowByte_lt_bufferBytes h
  have hlow : decide (windowByte n < bufferBytes size) = true := decide_eq_true (by omega)
  exact all_writeByte (fun m => decide (m < bufferBytes size)) _ _ _ (decide_eq_true hw)
    (all_writeByte (fun m => decide (m < bufferBytes size)) _ _ _ hlow hb)

/-- Memory fits where each buffer does (R52). -/
theorem Memory.fits_iff (m : Memory) (cfg : Config) :
    m.fits cfg = true ↔ ∀ b, (m.get b).within (bufferBytes (regionSize cfg b)) = true := by
  simp only [Memory.fits, List.all_cons, List.all_nil, Bool.and_true, Bool.and_eq_true]
  constructor
  · rintro ⟨hram, hfb, hcit, hpal⟩ b
    cases b <;> assumption
  · exact fun h => ⟨h .ram, h .fb, h .cit, h .pal⟩

/-- The address decoder answers a tryte of the region (R58). -/
theorem lt_regionSize_of_locate {cfg : Config} {v n : Nat} {b : BufferName} (h : locate cfg v = .mapped b n) :
    n < regionSize cfg b := by
  unfold locate at h
  split_ifs at h with hram hfb hcit hpal <;> cases h <;> simp only [regionSize] <;> omega

end Sys2Proof.Machine
end

section
/-!
PROOF. The invariant of the reachable states (10_state.md R36, R38; 42_fetch_execute.md R172).

`State.ValidData` is what a good state asks of everything but PHASE. Every statement of a chain completes on such a state and
keeps it (`State.ValidData.runPrim`), so the tick of a good state completes in a good state (`tick_of_good`): this one lemma gives
the invariant of the tick, of the step, and the safety of every run.
-/

namespace Sys2Proof.Machine

/-- Valid registers and latches, F.R0 = 0, canonical memory inside its buffers, valid mapped cells: a good state, whatever its
PHASE is. -/
structure State.ValidData (s : State) : Prop where
  a : validTryte s.a = true
  c : validTryte s.c = true
  d : validTryte s.d = true
  x : validTryte s.x = true
  y : validTryte s.y = true
  pc : validWord s.pc = true
  sp : validWord s.sp = true
  db : validTryte s.db = true
  al : validWord s.al = true
  r0 : s.f.r0 = .zero
  wf : s.mem.wf = true
  fits : s.mem.fits s.cfg = true
  cells : s.cellsValid

theorem good_iff (s : State) : s.Good ↔ s.ValidData ∧ s.phaseOk = true := by
  constructor
  · rintro ⟨hshape, hcells⟩
    simp only [State.shapeOk, State.regsValid, Bool.and_eq_true, decide_eq_true_eq] at hshape
    obtain ⟨⟨⟨⟨⟨⟨⟨⟨⟨⟨⟨⟨ha, hc⟩, hd⟩, hx⟩, hy⟩, hpc⟩, hsp⟩, hdb⟩, hal⟩, hr0⟩, hphase⟩, hwf⟩, hfits⟩ := hshape
    exact ⟨⟨ha, hc, hd, hx, hy, hpc, hsp, hdb, hal, hr0, hwf, hfits, hcells⟩, hphase⟩
  · rintro ⟨h, hphase⟩
    refine ⟨?_, h.cells⟩
    simp only [State.shapeOk, State.regsValid, Bool.and_eq_true, decide_eq_true_eq]
    exact ⟨⟨⟨⟨⟨⟨⟨⟨⟨⟨⟨⟨h.a, h.c⟩, h.d⟩, h.x⟩, h.y⟩, h.pc⟩, h.sp⟩, h.db⟩, h.al⟩, h.r0⟩, hphase⟩, h.wf⟩, h.fits⟩

/-! ## The values that an operation writes -/

theorem validWord_incW (w : UWord) : validWord (incW w) = true := validWord_encU12 _

theorem validTryte_fromBus (m : ArithMode) {b : Tryte} (h : validTryte b = true) : validTryte (fromBus m b) = true := by
  cases m with
  | balanced => exact h
  | unbalanced => exact validTryte_encB _

theorem validTryte_toBus (m : ArithMode) {r : Tryte} (h : validTryte r = true) : validTryte (toBus m r) = true := by
  cases m with
  | balanced => exact h
  | unbalanced => exact validTryte_encU _

/-- An add writes a valid accumulator in both modes (R260, R261). -/
theorem validTryte_addByMode (f : Flags) (acc m12 : Tryte) (d : Int) :
    validTryte (addByMode f acc m12 d).1 = true := by
  unfold addByMode
  cases f.bu <;> exact validTryte_encB _

/-- No add writes F.R0 (R36). -/
theorem addByMode_r0 (f : Flags) (acc m12 : Tryte) (d : Int) : (addByMode f acc m12 d).2.r0 = f.r0 := by
  unfold addByMode
  cases f.bu <;> rfl

/-- No flag-set instruction writes F.R0 (R36). -/
theorem setBy_r0 (f : Flags) (tog : Toggle) (sel : FlagSel) (v : Int) : (f.setBy tog sel v).r0 = f.r0 := by
  cases sel <;> rfl

/-- A cell after a write holds the tryte written or what it held. -/
theorem writeCell_cell {s : State} (hwf : s.mem.wf = true) {p : UWord} {t u : Tryte} {v : Nat}
    (h : (s.writeCell p t).cell v = some u) : u = t ∨ s.cell v = some u := by
  rw [State.cell, writeCell_cfg] at h
  rw [State.cell]
  cases hv : locate s.cfg v with
  | unmapped => rw [hv] at h; cases h
  | mapped q m =>
    rw [hv] at h
    cases hp : locate s.cfg (valU12 p) with
    | unmapped => exact .inr (by simpa only [State.writeCell, hp] using h)
    | mapped b n =>
      simp only [State.writeCell, hp, Memory.get_set, Option.some.injEq] at h ⊢
      split at h
      case isFalse => exact .inr h
      case isTrue hqb =>
        subst hqb
        rw [codecRead_codecWrite (Memory.get_wf _ _ hwf)] at h
        split at h
        case isTrue => exact .inl h.symm
        case isFalse => exact .inr h

theorem writeCell_fits {s : State} (hfits : s.mem.fits s.cfg = true) (p : UWord) (t : Tryte) :
    (s.writeCell p t).mem.fits s.cfg = true := by
  unfold State.writeCell
  cases hp : locate s.cfg (valU12 p) with
  | unmapped => exact hfits
  | mapped b n =>
    rw [Memory.fits_iff] at hfits ⊢
    intro q
    rw [Memory.get_set]
    split
    case isFalse => exact hfits q
    case isTrue hq =>
      subst hq
      exact codecWrite_within (lt_regionSize_of_locate hp) t (hfits q)

/-! ## Every operation keeps the data valid -/

namespace State.ValidData

variable {s : State}

theorem reg (h : s.ValidData) (r : Reg) : validTryte (s.reg r) = true := by
  cases r
  exacts [h.a, h.c, h.d, h.x, h.y]

theorem setReg (h : s.ValidData) (r : Reg) {v : Tryte} (hv : validTryte v = true) : (s.setReg r v).ValidData := by
  cases r
  exacts [{ h with a := hv }, { h with c := hv }, { h with d := hv }, { h with x := hv }, { h with y := hv }]

/-- The two latches and PC take valid values. -/
theorem withLatches (h : s.ValidData) {db : Tryte} {al pc : UWord} (hdb : validTryte db = true)
    (hal : validWord al = true) (hpc : validWord pc = true) : State.ValidData { s with db := db, al := al, pc := pc } :=
  { h with db := hdb, al := hal, pc := hpc }

theorem takeTryte (h : s.ValidData) {t : Tryte} (ht : validTryte t = true) : (s.takeTryte t).ValidData :=
  h.withLatches ht h.al (validWord_incW _)

theorem withPhase (h : s.ValidData) (p : Phase) : (s.withPhase p).ValidData := { h with }

theorem takeHigh (h : s.ValidData) {t : Tryte} (ht : validTryte t = true) : (s.takeHigh t).ValidData :=
  h.withLatches ht (validWord_wordOf h.db ((validWord_iff _).mp h.al).2) (validWord_incW _)

theorem hiset (h : s.ValidData) : s.hiset.ValidData :=
  h.withLatches h.db (validWord_wordOf ((validWord_iff _).mp h.al).1 h.db) h.pc

theorem indexAdd (h : s.ValidData) (r : Reg) : (s.indexAdd r).ValidData :=
  h.withLatches h.db (validWord_encU12 _) h.pc

theorem jumpToAl (h : s.ValidData) : s.jumpToAl.ValidData := h.withLatches h.db h.al h.al

theorem loadDatum (h : s.ValidData) (r : Reg) {b : Tryte} (hb : validTryte b = true) :
    (s.loadDatum r b).ValidData :=
  have latched : State.ValidData { s with db := b, f := { s.f with s := signM s.f.bu b } } := { h with db := hb }
  latched.setReg r (validTryte_fromBus _ hb)

theorem addOperand (h : s.ValidData) (src : AddSource) (k : AddKind) (m12 : Tryte) :
    (s.addOperand src k m12).ValidData :=
  { h with a := validTryte_addByMode _ _ _ _, r0 := (addByMode_r0 _ _ _ _).trans h.r0 }

theorem setFlag (h : s.ValidData) (sel : FlagSel) (v : Tryte) : (s.setFlag sel v).ValidData :=
  { h with r0 := (setBy_r0 _ _ _ _).trans h.r0 }

theorem spLowFromX (h : s.ValidData) : s.spLowFromX.ValidData :=
  { h with sp := validWord_wordOf (validTryte_encU _) ((validWord_iff _).mp h.sp).2 }

theorem spHighFromY (h : s.ValidData) : s.spHighFromY.ValidData :=
  { h with sp := validWord_wordOf ((validWord_iff _).mp h.sp).1 (validTryte_encU _) }

theorem xFromSpLow (h : s.ValidData) : s.xFromSpLow.ValidData := { h with x := validTryte_encB _ }

theorem yFromSpHigh (h : s.ValidData) : s.yFromSpHigh.ValidData := { h with y := validTryte_encB _ }

/-- A write of a valid tryte leaves every register and every other cell (R57, R59). -/
theorem writeCell (h : s.ValidData) (p : UWord) {t : Tryte} (ht : validTryte t = true) :
    (s.writeCell p t).ValidData where
  a := by rw [writeCell_a]; exact h.a
  c := by rw [writeCell_c]; exact h.c
  d := by rw [writeCell_d]; exact h.d
  x := by rw [writeCell_x]; exact h.x
  y := by rw [writeCell_y]; exact h.y
  pc := by rw [writeCell_pc]; exact h.pc
  sp := by rw [writeCell_sp]; exact h.sp
  db := by rw [writeCell_db]; exact h.db
  al := by rw [writeCell_al]; exact h.al
  r0 := by rw [writeCell_f]; exact h.r0
  wf := writeCell_wf s p t h.wf
  fits := by rw [writeCell_cfg]; exact writeCell_fits h.fits p t
  cells v u hu := by
    obtain rfl | hold := writeCell_cell h.wf hu
    · exact ht
    · exact h.cells v u hold

theorem storeAccess (h : s.ValidData) (r : Reg) : (s.storeAccess r).ValidData := by
  have hout := validTryte_toBus s.f.bu (h.reg r)
  have latched : State.ValidData { s with db := toBus s.f.bu (s.reg r) } := { h with db := hout }
  rw [storeAccess_eq]
  exact latched.writeCell _ hout

/-! ## Every read answers a valid tryte -/

theorem readOr (h : s.ValidData) {z : Tryte} (hz : validTryte z = true) (p : UWord) :
    ∃ t, s.readOr z p = .ok t ∧ validTryte t = true := by
  cases hc : s.cell (valU12 p) with
  | none => exact ⟨z, (readOr_ok s).mpr (.inr ⟨hc, rfl⟩), hz⟩
  | some t => exact ⟨t, (readOr_ok s).mpr (.inl ⟨hc, h.cells _ t hc⟩), h.cells _ t hc⟩

theorem readU (h : s.ValidData) (p : UWord) : ∃ t, s.readU p = .ok t ∧ validTryte t = true := h.readOr rfl p

theorem readB (h : s.ValidData) (p : UWord) : ∃ t, s.readB p = .ok t ∧ validTryte t = true := h.readOr rfl p

theorem rdM (h : s.ValidData) (p : UWord) : ∃ t, s.rdM p = .ok t ∧ validTryte t = true := by
  rw [rdM_eq]
  cases s.f.bu <;> exact h.readOr rfl p

/-- A statement that reads a tryte and then does something that a valid tryte lets it do. -/
theorem bindRead {x : Except Fault Tryte} (hx : ∃ t, x = .ok t ∧ validTryte t = true) {g : Tryte → State}
    (hg : ∀ t, validTryte t = true → (g t).ValidData) : ∃ u, (x >>= fun t => .ok (g t)) = .ok u ∧ u.ValidData := by
  obtain ⟨t, rfl, ht⟩ := hx
  exact ⟨g t, rfl, hg t ht⟩

/-! ## Every statement completes and keeps the data valid -/

theorem runPrim (h : s.ValidData) (p : Prim) : ∃ t, s.runPrim p = .ok t ∧ t.ValidData := by
  cases p with
  | opread => exact bindRead (h.readU _) fun _ ht => h.takeTryte ht
  | loread => exact bindRead (h.readU _) fun _ ht => h.takeHigh ht
  | test c => exact ⟨s, rfl, h⟩
  | hiset => exact ⟨_, rfl, h.hiset⟩
  | index r => exact ⟨_, rfl, h.indexAdd r⟩
  | pointerLow => exact bindRead (h.readU _) fun _ ht => h.withLatches ht h.al h.pc
  | pointerHigh => exact bindRead (h.readU _) fun _ ht => h.withLatches ht (validWord_wordOf h.db ht) h.pc
  | load r => exact bindRead (h.rdM _) fun _ ht => h.loadDatum r ht
  | store r => exact ⟨_, rfl, h.storeAccess r⟩
  | jump => exact ⟨_, rfl, h.jumpToAl⟩
  | loadImm r => exact bindRead (h.rdM _) fun _ ht => (h.takeTryte ht).loadDatum r ht
  | addImm k => exact bindRead (h.rdM _) fun t ht => (h.takeTryte ht).addOperand .imm k t
  | flagImm f => exact bindRead (h.readB _) fun t ht => (h.takeTryte ht).setFlag f t
  | addD k => exact ⟨_, rfl, h.addOperand .regD k _⟩
  | copy t => exact ⟨_, rfl, h.setReg _ (h.reg _)⟩
  | spLow => exact ⟨_, rfl, h.spLowFromX⟩
  | spHigh => exact ⟨_, rfl, h.spHighFromY⟩
  | xFromSp => exact ⟨_, rfl, h.xFromSpLow⟩
  | yFromSp => exact ⟨_, rfl, h.yFromSpHigh⟩

theorem runPrims (h : s.ValidData) (ps : List Prim) : ∃ t, s.runPrims ps = .ok t ∧ t.ValidData := by
  induction ps generalizing s with
  | nil => exact ⟨s, rfl, h⟩
  | cons p rest ih =>
    obtain ⟨u, hu, hvalid⟩ := h.runPrim p
    obtain ⟨t, ht, hgood⟩ := ih hvalid
    exact ⟨t, bind_ok.mpr ⟨u, hu, ht⟩, hgood⟩

end State.ValidData

/-! ## The phase of a good state -/

theorem prims_isSome {o : Op} {k : Nat} : (Uop.prims ⟨o, k + 1⟩).isSome = true ↔ k < (opChain o).length := by
  simp [Uop.prims]

/-- In a legal phase of Execute the UOP is step `k + 1` of a chain that has such a step (R172). -/
theorem phaseOk_execute {s : State} (hok : s.phaseOk = true) {u : Uop} (hp : s.phase = .execute u) :
    ∃ k, s.phase = .execute ⟨u.op, k + 1⟩ ∧ k < (opChain u.op).length := by
  obtain ⟨o, step⟩ := u
  rw [State.phaseOk, hp] at hok
  cases step with
  | zero => cases hok
  | succ k => exact ⟨k, hp, prims_isSome.mp hok⟩

/-- After a step of a chain, UOP is over or names the next step (R172). -/
theorem nextPhase_cases (u : Uop) (ps : List Prim) (f : Flags) :
    u.nextPhase ps f = .fetch ∨ u.step < (opChain u.op).length ∧ u.nextPhase ps f = .execute ⟨u.op, u.step + 1⟩ := by
  rw [Uop.nextPhase]
  split
  case isTrue => exact .inl rfl
  case isFalse hmore =>
    simp only [Bool.or_eq_true, decide_eq_true_eq, not_or, not_le] at hmore
    exact .inr ⟨hmore.1, rfl⟩

/-- PHASE and UOP after a step of a chain are legal (R172). -/
theorem phaseOk_nextPhase (s : State) (o : Op) (k : Nat) (ps : List Prim) (f : Flags) :
    (s.withPhase (Uop.nextPhase ⟨o, k + 1⟩ ps f)).phaseOk = true := by
  rw [State.phaseOk, withPhase_phase]
  obtain hnext | ⟨hlt, hnext⟩ := nextPhase_cases ⟨o, k + 1⟩ ps f <;> rw [hnext]
  exact prims_isSome.mpr hlt

/-- PHASE and UOP after a fetch name the first step of a chain (R171). -/
theorem phaseOk_afterFetch (s : State) (t0 : Tryte) : (s.afterFetch t0).phaseOk = true :=
  prims_isSome.mpr (opChain_length _).1

/-! ## The tick of a good state -/

/-- The tick of a good state completes in a good state (R38, R170, R341). -/
theorem tick_of_good {s : State} (h : s.Good) : ∃ t, tick s = .next t ∧ t.Good := by
  obtain ⟨hvalid, hok⟩ := (good_iff s).mp h
  cases hp : s.phase with
  | fetch =>
    obtain ⟨t0, hread, ht0⟩ := hvalid.readU s.pc
    refine ⟨s.afterFetch t0, ?_, (good_iff _).mpr ⟨(hvalid.takeTryte ht0).withPhase _, phaseOk_afterFetch s t0⟩⟩
    rw [tick_fetch s hp, State.fetchTick, hread]
    rfl
  | execute u =>
    obtain ⟨k, hstep, hk⟩ := phaseOk_execute hok hp
    obtain ⟨t, hrun, ht⟩ := hvalid.runPrims (opChain u.op)[k]
    refine ⟨_, ?_, (good_iff _).mpr ⟨ht.withPhase _, phaseOk_nextPhase t u.op k (opChain u.op)[k] t.f⟩⟩
    rw [tick_execute s hstep hk, hrun]
    rfl

/-- Settles O34: the tick of a good state is `tick_of_good`. -/
theorem tickKeepsGood : Obligations.TickKeepsGood := by
  unfold Obligations.TickKeepsGood
  intro s t h ht
  obtain ⟨u, hu, hgood⟩ := tick_of_good h
  rw [ht] at hu
  cases hu
  exact hgood

/-! ## The step and the runs -/

/-- The step is ticks up to an instruction boundary, from a boundary and from mid instruction alike (R174, R190). -/
theorem step_eq_tickToBoundary_maxTicks (s : State) : step s = tickToBoundary maxTicks s := by
  cases hp : s.phase with
  | fetch => exact step_eq_tickToBoundary s hp
  | execute u => rw [step, hp]

/-- What every tick keeps, the ticks to the boundary keep. -/
theorem tickToBoundary_keeps {P : State → Prop} (hP : ∀ s t, P s → tick s = .next t → P t) (n : Nat) {s t : State}
    (hs : P s) (h : tickToBoundary n s = .next t) : P t := by
  induction n generalizing s with
  | zero =>
    cases h
    exact hs
  | succ n ih =>
    rw [tickToBoundary] at h
    cases hu : tick s with
    | fault e => rw [hu] at h; cases h
    | refused r => rw [hu] at h; cases h
    | next u =>
      have hkept := hP s u hs hu
      simp only [hu] at h
      split at h
      case isTrue =>
        cases h
        exact hkept
      case isFalse => exact ih hkept h

/-- What every tick keeps, the step keeps. -/
theorem step_keeps {P : State → Prop} (hP : ∀ s t, P s → tick s = .next t → P t) {s t : State} (hs : P s)
    (h : step s = .next t) : P t :=
  tickToBoundary_keeps hP maxTicks hs (step_eq_tickToBoundary_maxTicks s ▸ h)

/-- Settles O35: the step is ticks, and each keeps the invariant. -/
theorem stepKeepsGood : Obligations.StepKeepsGood := by
  unfold Obligations.StepKeepsGood
  exact fun _ _ => step_keeps tickKeepsGood

/-- Any number of ticks from a good state ends in a good state. -/
theorem runTicks_of_good (n : Nat) {s : State} (h : s.Good) : ∃ t, runTicks n s = .next t ∧ t.Good := by
  induction n generalizing s with
  | zero => exact ⟨s, rfl, h⟩
  | succ n ih =>
    obtain ⟨u, hu, hgood⟩ := tick_of_good h
    rw [runTicks, hu]
    exact ih hgood

/-- What is constructed is the reset state of an admissible configuration and a canonical image that fits (R355, R360). -/
theorem construct_next {c : Config} {image : Memory} {s : State} (h : construct c image = .next s) :
    c.admissible = true ∧ image.wf = true ∧ image.fits c = true ∧ s = State.resetWith c image := by
  unfold construct at h
  split at h <;> cases h
  case isTrue hok =>
    simp only [Bool.and_eq_true] at hok
    obtain ⟨⟨hadm, hwf⟩, hfits⟩ := hok
    exact ⟨hadm, hwf, hfits, rfl⟩

/-- The balanced 0, which the registers and DB hold after reset, is valid (R361). -/
theorem validTryte_zeroB : validTryte 0x555#12 = true := by decide

/-- The word 0, which AL holds after reset, is valid (R365). -/
theorem validWord_zero : validWord 0x000000#24 = true := by decide

/-- A machine constructed with a valid image is in a good state (R38, R361 to R367). -/
theorem good_of_construct {c : Config} {image : Memory} {s : State} (h : construct c image = .next s)
    (hcells : s.cellsValid) : s.Good := by
  obtain ⟨hadm, hwf, hfits, rfl⟩ := construct_next h
  simp only [Config.admissible, Bool.and_eq_true] at hadm
  obtain ⟨⟨⟨-, hpc⟩, hsp⟩, -⟩ := hadm
  exact (good_iff _).mpr ⟨⟨validTryte_zeroB, validTryte_zeroB, validTryte_zeroB, validTryte_zeroB, validTryte_zeroB, hpc,
    hsp, validTryte_zeroB, validWord_zero, rfl, hwf, hfits, hcells⟩, rfl⟩

/-- Settles O37: construction gives a good state, and from there every run of ticks completes in one. -/
theorem validImageRunsAreSafe : Obligations.ValidImageRunsAreSafe := by
  unfold Obligations.ValidImageRunsAreSafe
  intro c image s hs hcells n
  obtain ⟨u, hu, hgood⟩ := runTicks_of_good n (good_of_construct hs hcells)
  refine ⟨⟨u, hu⟩, fun t ht => ?_⟩
  rw [hu] at ht
  cases ht
  exact hgood

end Sys2Proof.Machine
end

section
/-!
PROOF. The configuration is constant (00_scope.md R4, 10_state.md R21): no statement of a chain writes it, so no tick and no step
does.
-/

namespace Sys2Proof.Machine

variable {s t : State}

theorem tickOutcome_next {r : Except Fault State} (h : tickOutcome r = .next t) : r = .ok t := by
  cases r <;> cases h
  rfl

/-- What a tick does: a fetch, or the statements of a step and the next PHASE (R171, R172). -/
theorem tick_next (h : tick s = .next t) :
    (∃ t0, s.readU s.pc = .ok t0 ∧ t = s.afterFetch t0) ∨
    ∃ u ps v, s.runPrims ps = .ok v ∧ t = v.withPhase (Uop.nextPhase u ps v.f) := by
  unfold tick at h
  split at h
  case h_1 =>
    obtain ⟨t0, ht0, ht⟩ := bind_ok.mp (tickOutcome_next h)
    cases ht
    exact .inl ⟨t0, ht0, rfl⟩
  case h_2 u hu =>
    split at h
    case h_1 ps hps =>
      obtain ⟨v, hv, ht⟩ := bind_ok.mp (tickOutcome_next h)
      cases ht
      exact .inr ⟨u, ps, v, hv, rfl⟩
    case h_2 => cases h

/-- A statement that reads something and goes on with the configuration as it was. -/
theorem cfg_of_bind {α : Type} {x : Except Fault α} {g : α → State} (hg : ∀ a, (g a).cfg = s.cfg)
    (h : (x >>= fun a => .ok (g a)) = .ok t) : t.cfg = s.cfg := by
  obtain ⟨a, -, ht⟩ := bind_ok.mp h
  cases ht
  exact hg a

/-- No statement writes the configuration. -/
theorem runPrim_cfg {p : Prim} (h : s.runPrim p = .ok t) : t.cfg = s.cfg := by
  cases p with
  | opread => exact cfg_of_bind (takeTryte_cfg s) h
  | loread => exact cfg_of_bind (takeHigh_cfg s) h
  | pointerLow => exact cfg_of_bind (g := fun b => { s with db := b }) (fun _ => rfl) h
  | pointerHigh => exact cfg_of_bind (g := fun b => { s with al := wordOf s.db b, db := b }) (fun _ => rfl) h
  | load r => exact cfg_of_bind (loadDatum_cfg s r) h
  | loadImm r => exact cfg_of_bind (fun b => (loadDatum_cfg _ r b).trans (takeTryte_cfg s b)) h
  | addImm k => exact cfg_of_bind (fun b => (addOperand_cfg _ .imm k b).trans (takeTryte_cfg s b)) h
  | flagImm f => exact cfg_of_bind (fun b => (setFlag_cfg _ f b).trans (takeTryte_cfg s b)) h
  | index r => cases h; exact indexAdd_cfg s r
  | store r => cases h; exact storeAccess_cfg s r
  | copy x => cases h; exact copyReg_cfg s x
  | addD k => cases h; exact addOperand_cfg s .regD k _
  | test | hiset | jump | spLow | spHigh | xFromSp | yFromSp => cases h; rfl

theorem runPrims_cfg {ps : List Prim} (h : s.runPrims ps = .ok t) : t.cfg = s.cfg := by
  induction ps generalizing s with
  | nil => cases h; rfl
  | cons p rest ih =>
    obtain ⟨u, hu, ht⟩ := bind_ok.mp h
    exact (ih ht).trans (runPrim_cfg hu)

theorem tick_cfg (h : tick s = .next t) : t.cfg = s.cfg := by
  obtain ⟨t0, -, rfl⟩ | ⟨u, ps, v, hv, rfl⟩ := tick_next h
  · exact afterFetch_cfg s t0
  · exact (withPhase_cfg _ _).trans (runPrims_cfg hv)

theorem step_cfg (h : step s = .next t) : t.cfg = s.cfg :=
  step_keeps (P := fun u => u.cfg = s.cfg) (fun _ _ hu ht => (tick_cfg ht).trans hu) rfl h

theorem hostWrite_cfg {b : BufferName} {n : Nat} {v : Byte} (h : s.hostWrite b n v = .next t) : t.cfg = s.cfg := by
  unfold State.hostWrite at h
  split at h <;> cases h
  rfl

/-- Settles O38: by `tick_cfg`, `step_cfg` and `hostWrite_cfg`. -/
theorem configurationIsConstant : Obligations.ConfigurationIsConstant := by
  unfold Obligations.ConfigurationIsConstant
  exact ⟨fun _ _ => tick_cfg, fun _ _ => step_cfg, fun _ _ _ _ _ => hostWrite_cfg⟩

end Sys2Proof.Machine
end

section
/-!
PROOF. The layout of F (10_state.md R30): each flag is one field of the packed bits, `Flags.unpack` reads the six fields back
(`unpack_eq_some_iff`), and six codes make the twelve bits (`pack_eq_iff`).
-/

namespace Sys2Proof.Machine

theorem trit_code_lt (t : Trit) : t.code < 3 := by cases t <;> decide

theorem trit_ofCode_eq_some_iff {n : Nat} {t : Trit} : Trit.ofCode n = some t ↔ n = t.code := by
  constructor
  · intro h
    unfold Trit.ofCode at h
    split at h <;> cases h <;> rfl
  · rintro rfl
    cases t <;> rfl

/-- The packed number of six trits: their codes, base 4 (R100). -/
theorem tryteOfTrits_toNat (t5 t4 t3 t2 t1 t0 : Trit) :
    (tryteOfTrits t5 t4 t3 t2 t1 t0).toNat =
      t0.code + 4 * (t1.code + 4 * (t2.code + 4 * (t3.code + 4 * (t4.code + 4 * t5.code)))) := by
  have h0 := trit_code_lt t0
  have h1 := trit_code_lt t1
  have h2 := trit_code_lt t2
  have h3 := trit_code_lt t3
  have h4 := trit_code_lt t4
  have h5 := trit_code_lt t5
  rw [tryteOfTrits, BitVec.toNat_ofNat, Nat.mod_eq_of_lt (by omega)]

/-- Twelve bits are six trits exactly where their fields are the codes of the trits (R100). -/
theorem tryteOfTrits_eq_iff (b : Tryte) (t5 t4 t3 t2 t1 t0 : Trit) :
    tryteOfTrits t5 t4 t3 t2 t1 t0 = b ↔
      codeAt b.toNat 5 = t5.code ∧ codeAt b.toNat 4 = t4.code ∧ codeAt b.toNat 3 = t3.code ∧
      codeAt b.toNat 2 = t2.code ∧ codeAt b.toNat 1 = t1.code ∧ codeAt b.toNat 0 = t0.code := by
  have h0 := trit_code_lt t0
  have h1 := trit_code_lt t1
  have h2 := trit_code_lt t2
  have h3 := trit_code_lt t3
  have h4 := trit_code_lt t4
  have h5 := trit_code_lt t5
  have hb := b.isLt
  rw [← BitVec.toNat_inj, tryteOfTrits_toNat]
  simp only [codeAt, Nat.reducePow]
  omega

/-- A field of two bits is the code of its trit (R100). -/
theorem extractLsb_toNat_eq_codeAt (b : Tryte) (i : Nat) : (b.extractLsb' (2 * i) 2).toNat = codeAt b.toNat i := by
  rw [BitVec.extractLsb'_toNat, Nat.shiftRight_eq_div_pow, pow_mul]
  rfl

/-- The interrupt-enable trit of a code: no value for the digit 0 (R34, R342). -/
def IntEnable.ofCode : Nat → Option IntEnable
  | 2 => some .set
  | 0 => some .clear
  | _ => none

/-- The mode trit of a code: no value for the digit 0 (R35, R342). -/
def ArithMode.ofCode : Nat → Option ArithMode
  | 2 => some .balanced
  | 0 => some .unbalanced
  | _ => none

theorem intEnable_ofCode_eq_some_iff {n : Nat} {i : IntEnable} : IntEnable.ofCode n = some i ↔ n = i.trit.code := by
  constructor
  · intro h
    unfold IntEnable.ofCode at h
    split at h <;> cases h <;> rfl
  · rintro rfl
    cases i <;> rfl

theorem arithMode_ofCode_eq_some_iff {n : Nat} {m : ArithMode} : ArithMode.ofCode n = some m ↔ n = m.trit.code := by
  constructor
  · intro h
    unfold ArithMode.ofCode at h
    split at h <;> cases h <;> rfl
  · rintro rfl
    cases m <;> rfl

/-- F is unpacked field by field (R30). -/
theorem unpack_eq (b : Tryte) :
    Flags.unpack b =
      (Trit.ofCode (codeAt b.toNat 5)).bind fun s => (Trit.ofCode (codeAt b.toNat 4)).bind fun ou =>
      (Trit.ofCode (codeAt b.toNat 3)).bind fun cb => (IntEnable.ofCode (codeAt b.toNat 2)).bind fun i =>
      (ArithMode.ofCode (codeAt b.toNat 1)).bind fun bu => (Trit.ofCode (codeAt b.toNat 0)).bind fun r0 =>
      some { s, ou, cb, i, bu, r0 } := by
  have field := extractLsb_toNat_eq_codeAt b
  rw [← field 5, ← field 4, ← field 3, ← field 2, ← field 1, ← field 0, Flags.unpack]
  generalize (b.extractLsb' (2 * 2) 2).toNat = n2
  generalize (b.extractLsb' (2 * 1) 2).toNat = n1
  rcases n2 with _ | _ | _ | n2 <;> rcases n1 with _ | _ | _ | n1 <;> rfl

/-- What twelve bits unpack to: the flags whose codes are the six fields (R30, R342). -/
theorem unpack_eq_some_iff {b : Tryte} {f : Flags} :
    Flags.unpack b = some f ↔
      codeAt b.toNat 5 = f.s.code ∧ codeAt b.toNat 4 = f.ou.code ∧ codeAt b.toNat 3 = f.cb.code ∧
      codeAt b.toNat 2 = f.i.trit.code ∧ codeAt b.toNat 1 = f.bu.trit.code ∧ codeAt b.toNat 0 = f.r0.code := by
  simp only [unpack_eq, Option.bind_eq_some_iff, trit_ofCode_eq_some_iff, intEnable_ofCode_eq_some_iff,
    arithMode_ofCode_eq_some_iff, Option.some.injEq]
  constructor
  · rintro ⟨s, hs, ou, hou, cb, hcb, i, hi, bu, hbu, r0, hr0, rfl⟩
    exact ⟨hs, hou, hcb, hi, hbu, hr0⟩
  · rintro ⟨hs, hou, hcb, hi, hbu, hr0⟩
    exact ⟨_, hs, _, hou, _, hcb, _, hi, _, hbu, _, hr0, rfl⟩

/-- F is packed into `b` exactly where the six fields of `b` are its codes (R30). -/
theorem pack_eq_iff {b : Tryte} {f : Flags} : f.pack = b ↔ Flags.unpack b = some f := by
  rw [unpack_eq_some_iff]
  exact tryteOfTrits_eq_iff b _ _ _ _ _ _

/-- The code of a trit is a valid lowest field. -/
theorem fieldsValid_code_add (t : Trit) (k p : Nat) : fieldsValid (k + 1) (t.code + 4 * p) = fieldsValid k p := by
  have hlow : (t.code + 4 * p) % 4 = t.code := by have := trit_code_lt t; omega
  have hrest : (t.code + 4 * p) / 4 = p := by have := trit_code_lt t; omega
  have hne : t.code ≠ 3 := (trit_code_lt t).ne
  simp [fieldsValid, hlow, hrest, hne]

theorem validTryte_tryteOfTrits (t5 t4 t3 t2 t1 t0 : Trit) : validTryte (tryteOfTrits t5 t4 t3 t2 t1 t0) = true := by
  rw [validTryte, tryteOfTrits_toNat]
  simp only [fieldsValid_code_add]
  exact fieldsValid_code_add t5 0 0

/-- Settles O30: packing and unpacking are `pack_eq_iff`, the places of the flags `unpack_eq_some_iff`. -/
theorem flagRegisterLayout : Obligations.FlagRegisterLayout := by
  unfold Obligations.FlagRegisterLayout
  refine ⟨fun f => ?_, fun b f => pack_eq_iff.mpr⟩
  have hunpack : Flags.unpack f.pack = some f := pack_eq_iff.mp rfl
  obtain ⟨hs, hou, hcb, hi, hbu, hr0⟩ := unpack_eq_some_iff.mp hunpack
  exact ⟨hs, hou, hcb, hi, hbu, hr0, validTryte_tryteOfTrits _ _ _ _ _ _, hunpack⟩

end Sys2Proof.Machine
end

section
/-!
PROOF. What an instruction can change (10_state.md R22 to R36).

`Effect i s t` says once, family by family, what the state `t` after instruction `i` can be; `exec_effect` ties it to `exec`. The
statements about the registers, about the flags and about PC are each one case split over it. Latches, memory and the values that
SP, X and Y take from a stack-pointer transfer are left open: no statement here is about them.
-/

namespace Sys2Proof.Machine

/-- PC behind the operand trytes of an instruction, from PC behind its opcode tryte (R24). -/
def nextPc (o : Op) (pc : UWord) : UWord :=
  if o.length = 1 then pc else encU12 (valU12 pc + (o.length - 1 : Nat))

theorem nextPc_of_length_one {o : Op} (h : o.length = 1) (pc : UWord) : nextPc o pc = pc := if_pos h

theorem nextPc_of_length_two {o : Op} (h : o.length = 2) (pc : UWord) : nextPc o pc = incW pc := by
  rw [nextPc, h, if_neg (by decide), incW]
  rfl

theorem nextPc_of_length_three {o : Op} (h : o.length = 3) (pc : UWord) : nextPc o pc = incW (incW pc) := by
  rw [nextPc, h, if_neg (by decide), incW_incW]
  rfl

/-- A jump, or a branch whose condition holds (R300, R301). -/
def JumpsOn (o : Op) (f : Flags) : Prop := o = .jmp ∨ ∃ c, o = .branch c ∧ condHolds c f = true

/-- What the state after instruction `i` from `s` can be. -/
inductive Effect (i : Instr) (s : State) : State → Prop
  | load (r : Reg) (m : LdMode) (db : Tryte) (al pc : UWord) (hop : i.op = .ld r m) (hpc : pc = nextPc i.op s.pc) :
      Effect i s (({ s with
        db := db, al := al, pc := pc, phase := .fetch, f := { s.f with s := signM s.f.bu db } } : State).setReg r
          (fromBus s.f.bu db))
  | store (r : Reg) (m : StMode) (db : Tryte) (al pc : UWord) (mem : Memory) (hop : i.op = .st r m)
      (hpc : pc = nextPc i.op s.pc) :
      Effect i s { s with db := db, al := al, pc := pc, phase := .fetch, mem := mem }
  | add (src : AddSource) (k : AddKind) (db m12 : Tryte) (d : Int) (pc : UWord) (hop : i.op = .add src k)
      (hpc : pc = nextPc i.op s.pc) :
      Effect i s { s with
        db := db, pc := pc, phase := .fetch, a := (addByMode s.f s.a m12 d).1, f := (addByMode s.f s.a m12 d).2 }
  | transfer (x : Xfer) (hi : i = .xfer x) :
      Effect i s (({ s with phase := .fetch } : State).setReg (xferDst x) (s.reg (xferSrc x)))
  | tyxsp (sp : UWord) (hi : i = .tyxsp) : Effect i s { s with sp := sp, phase := .fetch }
  | tspyx (x y : Tryte) (hi : i = .tspyx) : Effect i s { s with x := x, y := y, phase := .fetch }
  | jump (w al : UWord) (db : Tryte) (hop : JumpsOn i.op s.f) (hw : i.operands = [loTryte w, hiTryte w]) :
      Effect i s { s with pc := w, al := al, db := db, phase := .fetch }
  | noJump (c : Cond) (al pc : UWord) (db : Tryte) (hop : i.op = .branch c) (hc : condHolds c s.f = false)
      (hpc : pc = nextPc i.op s.pc) :
      Effect i s { s with pc := pc, al := al, db := db, phase := .fetch }
  | flagSet (sel : FlagSel) (v : Int) (db : Tryte) (pc : UWord) (hop : i.op = .setFlag sel)
      (hpc : pc = nextPc i.op s.pc) :
      Effect i s { s with db := db, pc := pc, phase := .fetch, f := s.f.setBy s.cfg.flagToggle sel v }
  | invalid (hop : i.op = .invalid) : Effect i s { s with phase := .fetch }

variable {i : Instr} {s t : State}

/-- A load from memory that completes has a datum on DB, an address in AL, and the register and F.S from the datum (R186). -/
theorem loadMemory_next {r : Reg} {m : AddrMode} {w : UWord} (h : loadMemory r m w s = .next t) :
    ∃ db al, t = ({ s with
      db := db, al := al, pc := incW (incW s.pc), phase := .fetch,
      f := { s.f with s := signM s.f.bu db } } : State).setReg r (fromBus s.f.bu db) := by
  rw [loadMemory_eq, finish_next] at h
  obtain ⟨u, hu, rfl⟩ := h
  obtain ⟨ea, -, hu⟩ := bind_ok.mp hu
  obtain ⟨b, -, hu⟩ := bind_ok.mp hu
  cases hu
  exact ⟨b, ea, by cases r <;> rfl⟩

/-- Every instruction that completes has one of the effects. -/
theorem exec_effect (h : exec i s = .next t) : Effect i s t := by
  rcases exec_cases i s with ⟨r, m, w, hop, -, he⟩ | ⟨r, m, w, hop, -, he⟩ | ⟨r, v, rfl, he⟩ | ⟨k, v, rfl, he⟩ | ⟨k, rfl, he⟩ |
    ⟨x, rfl, he⟩ | ⟨rfl, he⟩ | ⟨rfl, he⟩ | ⟨w, rfl, he⟩ | ⟨c, w, hop, hw, he⟩ | ⟨f, v, rfl, he⟩ | ⟨v, rfl, he⟩
  · obtain ⟨db, al, rfl⟩ := loadMemory_next (he ▸ h)
    exact .load r (.mem m) db al _ hop (nextPc_of_length_three (by rw [hop]; rfl) _).symm
  · rw [he, storeMemory_eq] at h
    cases h
    exact .store r m _ _ _ _ hop (nextPc_of_length_three (by rw [hop]; rfl) _).symm
  · rw [he, loadImmediate_eq] at h
    cases h
    exact .load r .imm v s.al _ (op_ld _ _ _ _) (nextPc_of_length_two (by rw [op_ld]; rfl) _).symm
  · rw [he, addImmediate_eq] at h
    cases h
    exact .add .imm k v v _ _ (op_adds _ _ _) (nextPc_of_length_two (by rw [op_adds]; rfl) _).symm
  · rw [he, addData_eq] at h
    cases h
    exact .add .regD k s.db _ _ s.pc (op_adds _ _ _) (nextPc_of_length_one (by rw [op_adds]; rfl) _).symm
  · rw [he, transfer_eq] at h
    cases h
    exact .transfer x rfl
  · rw [he] at h
    cases h
    exact .tyxsp _ rfl
  · rw [he] at h
    cases h
    exact .tspyx _ _ rfl
  · rw [he, execJmp_eq] at h
    cases h
    exact .jump w w _ (.inl rfl) rfl
  · rw [he, branchOn_eq] at h
    cases h
    split
    case isTrue hc => exact .jump w w _ (.inr ⟨c, hop, hc⟩) hw
    case isFalse hc =>
      exact .noJump c _ _ _ hop (eq_false_of_ne_true hc) (nextPc_of_length_three (by rw [hop]; rfl) _).symm
  · rw [he, flagSet_eq] at h
    cases h
    exact .flagSet f (valB v) v _ (op_setFlag _ _) (nextPc_of_length_two (by rw [op_setFlag]; rfl) _).symm
  · rw [he] at h
    cases h
    exact .invalid rfl

/-! ## Registers -/

/-- The transfers with destination `q`, and `TSPYX` for X and Y (R270, R292). -/
def transfersInto : Reg → List Instr
  | .a => [.tca, .tda, .txa, .tya]
  | .c => [.tac, .tdc, .txc, .tyc]
  | .d => [.tad, .tcd, .txd, .tyd]
  | .x => [.tax, .tcx, .tdx, .tyx, .tspyx]
  | .y => [.tay, .tcy, .tdy, .txy, .tspyx]

theorem xfer_mem_transfersInto (x : Xfer) : Instr.xfer x ∈ transfersInto (xferDst x) := by
  cases x <;> simp [Instr.xfer, transfersInto, xferDst]

/-- The register file does not depend on any other field. -/
theorem reg_of_regs_eq {s u : State} (ha : u.a = s.a) (hc : u.c = s.c) (hd : u.d = s.d) (hx : u.x = s.x) (hy : u.y = s.y)
    (q : Reg) : u.reg q = s.reg q := by
  cases q <;> assumption

/-- A register that differs after one register was written is that register. -/
theorem eq_of_setReg_ne {u : State} {q r : Reg} {v : Tryte} (hu : u.reg q = s.reg q)
    (h : (u.setReg r v).reg q ≠ s.reg q) : q = r := by
  by_contra hne
  rw [setReg_reg, if_neg hne] at h
  exact h hu

/-- Which instructions can change register `q` (R23). -/
theorem Effect.reg (h : Effect i s t) {q : Reg} (hq : t.reg q ≠ s.reg q) :
    (∃ m, i.op = .ld q m) ∨ (q = .a ∧ ∃ src k, i.op = .add src k) ∨ i ∈ transfersInto q := by
  cases h with
  | load r m db al pc hop =>
    obtain rfl := eq_of_setReg_ne (reg_of_regs_eq rfl rfl rfl rfl rfl q) hq
    exact .inl ⟨m, hop⟩
  | add src k db m12 d pc hop =>
    cases q
    case a => exact .inr (.inl ⟨rfl, src, k, hop⟩)
    all_goals exact absurd rfl hq
  | transfer x hi =>
    obtain rfl := eq_of_setReg_ne (reg_of_regs_eq rfl rfl rfl rfl rfl q) hq
    exact .inr (.inr (hi ▸ xfer_mem_transfersInto x))
  | tspyx x y hi =>
    subst hi
    cases q
    case x | y => exact .inr (.inr (by simp [transfersInto]))
    all_goals exact absurd rfl hq
  | store | tyxsp | jump | noJump | flagSet | invalid => exact absurd (reg_of_regs_eq rfl rfl rfl rfl rfl q) hq

/-- Only `TYXSP` changes SP (R26). -/
theorem Effect.sp (h : Effect i s t) (hsp : t.sp ≠ s.sp) : i = .tyxsp := by
  cases h with
  | tyxsp sp hi => exact hi
  | load | transfer => exact absurd (setReg_sp _ _ _) hsp
  | store | add | tspyx | jump | noJump | flagSet | invalid => exact absurd rfl hsp

/-- Settles O57: by `Effect.reg` at each register and `Effect.sp`. -/
theorem registerWriters : Obligations.RegisterWriters := by
  unfold Obligations.RegisterWriters
  intro i s t h
  have effect := exec_effect h
  refine ⟨fun ha => ?_, fun hc => ?_, fun hd => ?_, fun hx => ?_, fun hy => ?_, effect.sp⟩
  · obtain hld | ⟨-, hadd⟩ | hmem := effect.reg (q := .a) ha
    exacts [.inl hld, .inr (.inl hadd), .inr (.inr hmem)]
  · obtain hld | ⟨⟨⟩, -⟩ | hmem := effect.reg (q := .c) hc
    exacts [.inl hld, .inr hmem]
  · obtain hld | ⟨⟨⟩, -⟩ | hmem := effect.reg (q := .d) hd
    exacts [.inl hld, .inr hmem]
  · obtain hld | ⟨⟨⟩, -⟩ | hmem := effect.reg (q := .x) hx
    exacts [.inl hld, .inr hmem]
  · obtain hld | ⟨⟨⟩, -⟩ | hmem := effect.reg (q := .y) hy
    exacts [.inl hld, .inr hmem]

/-! ## Flags -/

theorem addByMode_balanced {f : Flags} (h : f.bu = .balanced) (acc m12 : Tryte) (d : Int) :
    addByMode f acc m12 d = addBalanced f acc m12 d := by
  rw [addByMode, h]

theorem addByMode_unbalanced {f : Flags} (h : f.bu = .unbalanced) (acc m12 : Tryte) (d : Int) :
    addByMode f acc m12 d = addUnbalanced f acc m12 d := by
  rw [addByMode, h]

/-- A balanced add writes F.S and F.OU, an unbalanced one F.S and F.CB (R260, R261, D13). -/
theorem addByMode_flags (f : Flags) (acc m12 : Tryte) (d : Int) :
    (f.bu = .balanced ∧ ∃ sign ovf, (addByMode f acc m12 d).2 = { f with s := sign, ou := ovf }) ∨
    (f.bu = .unbalanced ∧ ∃ sign carry, (addByMode f acc m12 d).2 = { f with s := sign, cb := carry }) := by
  cases hbu : f.bu with
  | balanced => exact .inl ⟨rfl, hbu ▸ ⟨_, _, congrArg Prod.snd (addByMode_balanced hbu acc m12 d)⟩⟩
  | unbalanced => exact .inr ⟨rfl, hbu ▸ ⟨_, _, congrArg Prod.snd (addByMode_unbalanced hbu acc m12 d)⟩⟩

/-- What F is after an instruction. -/
theorem Effect.flags (h : Effect i s t) :
    t.f = s.f ∨
    ((∃ r m, i.op = .ld r m) ∧ ∃ sign, t.f = { s.f with s := sign }) ∨
    ((∃ src k, i.op = .add src k) ∧ s.f.bu = .balanced ∧ ∃ sign ovf, t.f = { s.f with s := sign, ou := ovf }) ∨
    ((∃ src k, i.op = .add src k) ∧ s.f.bu = .unbalanced ∧ ∃ sign carry, t.f = { s.f with s := sign, cb := carry }) ∨
    ∃ sel v, i.op = .setFlag sel ∧ t.f = s.f.setBy s.cfg.flagToggle sel v := by
  cases h with
  | load r m db al pc hop => exact .inr (.inl ⟨⟨r, m, hop⟩, _, setReg_f _ _ _⟩)
  | add src k db m12 d pc hop =>
    obtain ⟨hbu, hf⟩ | ⟨hbu, hf⟩ := addByMode_flags s.f s.a m12 d
    · exact .inr (.inr (.inl ⟨⟨src, k, hop⟩, hbu, hf⟩))
    · exact .inr (.inr (.inr (.inl ⟨⟨src, k, hop⟩, hbu, hf⟩)))
  | flagSet sel v db pc hop => exact .inr (.inr (.inr (.inr ⟨sel, v, hop, rfl⟩)))
  | transfer => exact .inl (setReg_f _ _ _)
  | store | tyxsp | tspyx | jump | noJump | invalid => exact .inl rfl

/-- Settles O58: each form that F can take after an instruction differs from F in the trits of that instruction only. -/
theorem flagWriters : Obligations.FlagWriters := by
  unfold Obligations.FlagWriters
  intro i s t h
  obtain hf | ⟨hop, _, hf⟩ | ⟨hop, hbu, _, _, hf⟩ | ⟨hop, hbu, _, _, hf⟩ | ⟨sel, v, hop, hf⟩ := (exec_effect h).flags <;>
    rw [hf]
  · simp
  · simp [hop]
  · simp [hop, hbu]
  · simp [hop, hbu]
  · cases sel <;> simp [Flags.setBy, hop]

/-! ## PC -/

/-- PC after an instruction: the operand word where it jumps, else behind the operand trytes (R24, R25). -/
theorem Effect.pc (h : Effect i s t) :
    (JumpsOn i.op s.f ∧ i.operands = [loTryte t.pc, hiTryte t.pc]) ∨
    (¬ JumpsOn i.op s.f ∧ t.pc = nextPc i.op s.pc) := by
  cases h with
  | jump w al db hop hw => exact .inl ⟨hop, hw⟩
  | noJump c al pc db hop hc hpc => exact .inr ⟨by simp [JumpsOn, hop, hc], hpc⟩
  | load r m db al pc hop hpc => exact .inr ⟨by simp [JumpsOn, hop], (setReg_pc _ _ _).trans hpc⟩
  | store r m db al pc mem hop hpc => exact .inr ⟨by simp [JumpsOn, hop], hpc⟩
  | add src k db m12 d pc hop hpc => exact .inr ⟨by simp [JumpsOn, hop], hpc⟩
  | flagSet sel v db pc hop hpc => exact .inr ⟨by simp [JumpsOn, hop], hpc⟩
  | transfer x hi =>
    have hop : i.op = .xfer x := hi ▸ op_xfer x
    refine .inr ⟨by simp [JumpsOn, hop], ?_⟩
    rw [setReg_pc, nextPc_of_length_one (by rw [hop]; rfl)]
  | tyxsp sp hi => exact .inr ⟨by simp [JumpsOn, hi, Instr.op], (nextPc_of_length_one (by rw [hi]; rfl) _).symm⟩
  | tspyx x y hi => exact .inr ⟨by simp [JumpsOn, hi, Instr.op], (nextPc_of_length_one (by rw [hi]; rfl) _).symm⟩
  | invalid hop => exact .inr ⟨by simp [JumpsOn, hop], (nextPc_of_length_one (by rw [hop]; rfl) _).symm⟩

/-- Settles O59: by `Effect.pc`. -/
theorem programCounterAfterInstruction : Obligations.ProgramCounterAfterInstruction := by
  unfold Obligations.ProgramCounterAfterInstruction
  intro i s t h
  obtain ⟨hjump, hw⟩ | ⟨hno, hpc⟩ := (exec_effect h).pc
  · exact ⟨fun _ => hw, fun hno => absurd hjump hno⟩
  · refine ⟨fun hjump => absurd hjump hno, fun _ => ⟨fun hone => ?_, fun hmore => ?_⟩⟩
    · rw [hpc, nextPc_of_length_one hone]
    · rw [hpc, nextPc, if_neg hmore]

end Sys2Proof.Machine
end

section
/-!
PROOF. The bytes of a buffer and the trytes in them (20_memory.md R52 to R56).

The bits of a buffer number its bytes and its trytes alike: bit `k` is bit `k % 8` of byte `k / 8` (`readByte_getLsbD`) and bit
`k % 12` of tryte `k / 12` (`codecRead_getLsbD`).
-/

namespace Sys2Proof.Machine

/-- Bit `i` of byte `m` is bit `8 m + i` of the buffer (R52). -/
theorem readByte_getLsbD (buf : Buffer) (m i : Nat) (hi : i < 8) :
    (readByte buf m).getLsbD i = bufferBit buf (8 * m + i) := by
  have hbyte : (8 * m + i) / 8 = m := by omega
  have hbit : (8 * m + i) % 8 = i := by omega
  rw [bufferBit, hbyte, hbit]

/-- The place of a tryte in its window: bit 0 at an even place, bit 4 at an odd one (R52). -/
theorem windowBit_eq (n : Nat) : windowBit n = if n % 2 = 0 then 0 else 4 := by
  unfold windowBit
  split <;> omega

/-- The size of a buffer in bytes is 3/2 of its trytes, rounded up (R52). -/
theorem bufferBytes_bounds (n : Nat) : 3 * n ≤ 2 * bufferBytes n ∧ 2 * bufferBytes n < 3 * n + 2 := by
  unfold bufferBytes
  omega

/-- Settles O18: each clause is a lemma about the window or the size. -/
theorem bufferHoldsEveryWindow : Obligations.BufferHoldsEveryWindow := by
  unfold Obligations.BufferHoldsEveryWindow
  exact ⟨bufferBytes_bounds, fun n => ⟨windowByte_windowBit n, windowBit_eq n⟩, fun _ _ => windowByte_lt_bufferBytes⟩

/-- A stretch of bits is what a shift leaves in the low bits. -/
theorem extractLsb'_eq_setWidth_ushiftRight {w : Nat} (x : BitVec w) (start len : Nat) :
    x.extractLsb' start len = (x >>> start).setWidth len := by
  apply BitVec.eq_of_toNat_eq
  rw [BitVec.extractLsb'_toNat, BitVec.toNat_setWidth, BitVec.toNat_ushiftRight]

/-- Settles O16: the two bytes written are `readByte_codecWrite`, the trytes `codecRead_codecWrite`. -/
theorem codecWriteReplacesOneTryte : Obligations.CodecWriteReplacesOneTryte := by
  unfold Obligations.CodecWriteReplacesOneTryte
  intro buf n v hb w w' out
  have hbyte (m : Nat) : readByte out m =
      if 12 * n / 8 + 1 = m then w'.extractLsb' 8 8 else if 12 * n / 8 = m then w'.extractLsb' 0 8 else readByte buf m :=
    readByte_codecWrite hb n m v
  have htryte (m : Nat) : codecRead out m = if m = n then v else codecRead buf m := codecRead_codecWrite hb n m v
  refine ⟨?_, ?_, fun m hlow hhigh => ?_, ?_, fun m hm => ?_, codecWrite_wf buf n v hb⟩
  · rw [hbyte, if_neg (by omega), if_pos rfl, BitVec.setWidth_eq_extractLsb' (by decide)]
  · rw [hbyte, if_pos rfl, extractLsb'_eq_setWidth_ushiftRight]
  · rw [hbyte, if_neg (Ne.symm hhigh), if_neg (Ne.symm hlow)]
  · rw [htryte, if_pos rfl]
  · rw [htryte, if_neg hm]

/-- The middle byte of three: the top bits of the even tryte below the low bits of the odd one (R56). -/
theorem readByte_shared (buf : Buffer) (k : Nat) :
    readByte buf (3 * k + 1) =
      ((codecRead buf (2 * k)).extractLsb' 8 4).setWidth 8 |||
        (((codecRead buf (2 * k + 1)).extractLsb' 0 4).setWidth 8 <<< 4) := by
  apply BitVec.eq_of_getLsbD_eq
  intro i hi
  rw [readByte_getLsbD _ _ _ hi, BitVec.getLsbD_or, BitVec.getLsbD_shiftLeft, BitVec.getLsbD_setWidth,
    BitVec.getLsbD_setWidth, BitVec.getLsbD_extractLsb', BitVec.getLsbD_extractLsb']
  by_cases h4 : i < 4
  · have hplace : 8 * (3 * k + 1) + i = 12 * (2 * k) + (8 + i) := by omega
    simp [h4, hi, hplace, codecRead_getLsbD buf (2 * k) (8 + i) (by omega)]
  · have hplace : 8 * (3 * k + 1) + i = 12 * (2 * k + 1) + (i - 4) := by omega
    have hnibble : i - 4 < 4 := by omega
    have hbyte : i - 4 < 8 := by omega
    simp [h4, hi, hplace, hnibble, hbyte, codecRead_getLsbD buf (2 * k + 1) (i - 4) (by omega)]

/-- A byte whose eight bits lie in one tryte, from its bit `j` on (R56). -/
theorem readByte_inside (buf : Buffer) {m n j : Nat} (hplace : 8 * m = 12 * n + j) (hj : j ≤ 4) :
    readByte buf m = (codecRead buf n).extractLsb' j 8 := by
  apply BitVec.eq_of_getLsbD_eq
  intro i hi
  rw [readByte_getLsbD _ _ _ hi, BitVec.getLsbD_extractLsb', decide_eq_true hi, Bool.true_and,
    codecRead_getLsbD _ _ _ (by omega), hplace, Nat.add_assoc]

/-- Settles O17: the outer bytes lie inside one tryte each, the middle one is `readByte_shared`. -/
theorem twoTrytesShareThreeBytes : Obligations.TwoTrytesShareThreeBytes := by
  unfold Obligations.TwoTrytesShareThreeBytes
  exact fun buf k => ⟨readByte_inside buf (by omega) (by omega), readByte_shared buf k,
    readByte_inside buf (by omega) (by omega)⟩

end Sys2Proof.Machine
end

section
/-!
PROOF. The address decoder and the access functions (20_memory.md R57 to R63, R70).

`InRegion` says where the region behind a buffer lies. The decoder answers a buffer only inside its region, at the offset from
the region's base, so two addresses never lead to one cell (`locate_injective`): a write changes the cell at its address and no
other (`cell_writeCell`). Under R62 no address lies in two regions, and the decoder answers each region whole.
-/

namespace Sys2Proof.Machine

/-! ## Where an address leads -/

/-- The first address of the region behind a buffer (R58). -/
def regionBase (cfg : Config) : BufferName → Nat
  | .ram => 0
  | .fb => cfg.fbBase
  | .cit => cfg.citBase
  | .pal => cfg.palBase

/-- Address number `v` lies in the region behind buffer `b` (R58). -/
def InRegion (cfg : Config) (b : BufferName) (v : Nat) : Prop :=
  regionBase cfg b ≤ v ∧ v < regionBase cfg b + regionSize cfg b

/-- RAM starts at address 0 (R58). -/
theorem inRegion_ram {cfg : Config} {v : Nat} : InRegion cfg .ram v ↔ v < cfg.ramSize := by
  simp [InRegion, regionBase, regionSize]

/-- The decoder answers a buffer only inside its region, at the offset from the region's base (R58, R60). -/
theorem inRegion_of_locate {cfg : Config} {v n : Nat} {b : BufferName} (h : locate cfg v = .mapped b n) :
    InRegion cfg b v ∧ n = v - regionBase cfg b := by
  unfold locate at h
  split_ifs at h with hram hfb hcit hpal <;> cases h
  · exact ⟨inRegion_ram.mpr hram, rfl⟩
  · exact ⟨hfb, rfl⟩
  · exact ⟨hcit, rfl⟩
  · exact ⟨hpal, rfl⟩

/-- Two addresses that lead to one tryte of one buffer are the same (R60). -/
theorem locate_injective {cfg : Config} {v u n : Nat} {b : BufferName} (hv : locate cfg v = .mapped b n)
    (hu : locate cfg u = .mapped b n) : v = u := by
  obtain ⟨⟨hbase, -⟩, hn⟩ := inRegion_of_locate hv
  obtain ⟨⟨hbase', -⟩, hn'⟩ := inRegion_of_locate hu
  omega

/-- An address is unmapped where it lies in no region (R58, R61). -/
theorem locate_eq_unmapped_iff {cfg : Config} {v : Nat} : locate cfg v = .unmapped ↔ ∀ b, ¬ InRegion cfg b v := by
  constructor
  · intro h b
    unfold locate at h
    split_ifs at h with hram hfb hcit hpal
    cases b with
    | ram => exact mt inRegion_ram.mp hram
    | fb => exact hfb
    | cit => exact hcit
    | pal => exact hpal
  · intro h
    cases hl : locate cfg v with
    | unmapped => rfl
    | mapped b n => exact absurd (inRegion_of_locate hl).1 (h b)

/-- No address lies in two disjoint ranges. -/
theorem not_mem_both_of_disjointRanges {b1 s1 b2 s2 v : Nat} (h : disjointRanges b1 s1 b2 s2 = true)
    (h1 : b1 ≤ v ∧ v < b1 + s1) : ¬ (b2 ≤ v ∧ v < b2 + s2) := by
  simp only [disjointRanges, Bool.or_eq_true, decide_eq_true_eq] at h
  omega

theorem disjointRanges_comm (b1 s1 b2 s2 : Nat) : disjointRanges b1 s1 b2 s2 = disjointRanges b2 s2 b1 s1 := by
  simp only [disjointRanges, Bool.or_comm, Bool.or_left_comm]

/-- The regions of two buffers are disjoint under R62. -/
theorem disjointRanges_of_regionsOk {cfg : Config} (hok : cfg.regionsOk = true) {b q : BufferName} (hne : b ≠ q) :
    disjointRanges (regionBase cfg b) (regionSize cfg b) (regionBase cfg q) (regionSize cfg q) = true := by
  simp only [Config.regionsOk, Bool.and_eq_true] at hok
  obtain ⟨⟨⟨⟨⟨⟨-, hramFb⟩, hramCit⟩, hramPal⟩, hfbCit⟩, hfbPal⟩, hcitPal⟩ := hok
  cases b <;> cases q
  case ram.ram | fb.fb | cit.cit | pal.pal => exact absurd rfl hne
  case fb.ram | cit.ram | cit.fb | pal.ram | pal.fb | pal.cit => rw [disjointRanges_comm]; assumption
  all_goals assumption

/-- Under R62 the decoder answers each region whole (R58, R60). -/
theorem locate_eq_mapped_iff {cfg : Config} (hok : cfg.regionsOk = true) {v n : Nat} {b : BufferName} :
    locate cfg v = .mapped b n ↔ InRegion cfg b v ∧ n = v - regionBase cfg b := by
  refine ⟨inRegion_of_locate, fun ⟨hin, hn⟩ => ?_⟩
  cases hl : locate cfg v with
  | unmapped => exact absurd hin (locate_eq_unmapped_iff.mp hl b)
  | mapped q m =>
    obtain ⟨hq, hm⟩ := inRegion_of_locate hl
    obtain rfl : b = q := by
      by_contra hne
      exact not_mem_both_of_disjointRanges (disjointRanges_of_regionsOk hok hne) hin hq
    rw [hm, hn]

/-- Settles O19: `locate_eq_mapped_iff` at each buffer, and `locate_eq_unmapped_iff`. -/
theorem addressDecodingOutcomes : Obligations.AddressDecodingOutcomes := by
  unfold Obligations.AddressDecodingOutcomes
  intro c v n hok
  have hwindow (b : BufferName) : locate c v = .mapped b n ↔
      regionBase c b ≤ v ∧ v < regionBase c b + regionSize c b ∧ n = v - regionBase c b := by
    rw [locate_eq_mapped_iff hok, InRegion, and_assoc]
  refine ⟨?_, hwindow .fb, hwindow .cit, hwindow .pal, ?_⟩
  · rw [locate_eq_mapped_iff hok, inRegion_ram]
    rfl
  · rw [locate_eq_unmapped_iff, ← inRegion_ram]
    exact ⟨fun h => ⟨h .ram, h .fb, h .cit, h .pal⟩, fun ⟨hram, hfb, hcit, hpal⟩ b => by cases b <;> assumption⟩

/-! ## Reads -/

variable {s : State}

theorem cell_of_unmapped {v : Nat} (h : locate s.cfg v = .unmapped) : s.cell v = none := by
  rw [State.cell, h]

theorem cell_of_mapped {v n : Nat} {b : BufferName} (h : locate s.cfg v = .mapped b n) :
    s.cell v = some (codecRead (s.mem.get b) n) := by
  rw [State.cell, h]

/-- A tryte read where nothing is mapped answers the zero of its type (R61). -/
theorem readOr_of_unmapped {p : UWord} (h : locate s.cfg (valU12 p) = .unmapped) (zero : Tryte) :
    s.readOr zero p = .ok zero :=
  (readOr_ok s).mpr (.inr ⟨cell_of_unmapped h, rfl⟩)

/-- A mapped tryte read answers a valid cell (R57). -/
theorem readOr_of_valid {p : UWord} {t : Tryte} (h : s.cell (valU12 p) = some t) (hv : validTryte t = true)
    (zero : Tryte) : s.readOr zero p = .ok t :=
  (readOr_ok s).mpr (.inl ⟨h, hv⟩)

/-- A mapped tryte read stops at a cell of which a field holds 3 (R63). -/
theorem readOr_of_invalid {p : UWord} {t : Tryte} (h : s.cell (valU12 p) = some t) (hv : validTryte t = false)
    (zero : Tryte) : s.readOr zero p = .error (.tritInvariantViolation p) :=
  (readOr_error s).mpr ⟨t, h, hv, rfl⟩

theorem writeCell_of_unmapped {p : UWord} (h : locate s.cfg (valU12 p) = .unmapped) (t : Tryte) :
    s.writeCell p t = s := by
  rw [State.writeCell, h]

/-- Settles O20: by `readOr_of_unmapped` and `writeCell_of_unmapped`. -/
theorem unmappedAccess : Obligations.UnmappedAccess := by
  unfold Obligations.UnmappedAccess
  exact fun s a t h => ⟨readOr_of_unmapped h _, readOr_of_unmapped h _, by decide, by decide, writeCell_of_unmapped h t,
    writeCell_of_unmapped h t⟩

/-- Settles O21: by `readOr_of_valid` and `readOr_of_invalid`. -/
theorem mappedRead : Obligations.MappedRead := by
  unfold Obligations.MappedRead
  intro s a b n h
  have hcell := cell_of_mapped h
  exact ⟨fun hv => ⟨readOr_of_valid hcell hv _, readOr_of_valid hcell hv _⟩,
    fun hv => ⟨readOr_of_invalid hcell hv _, readOr_of_invalid hcell hv _⟩⟩

/-! ## Writes -/

/-- A write changes memory alone (R57, R59). -/
theorem writeCell_eq_with_mem (s : State) (p : UWord) (t : Tryte) :
    s.writeCell p t = { s with mem := (s.writeCell p t).mem } := by
  unfold State.writeCell
  split <;> rfl

/-- A cell after a write: at the address of the write the tryte written, where one is mapped; at every other what it held
(R59, R60). -/
theorem cell_writeCell (hwf : s.mem.wf = true) (p : UWord) (t : Tryte) (v : Nat) :
    (s.writeCell p t).cell v = if v = valU12 p then (s.cell v).map fun _ => t else s.cell v := by
  cases hp : locate s.cfg (valU12 p) with
  | unmapped =>
    rw [writeCell_of_unmapped hp]
    split
    case isTrue hv => rw [hv, cell_of_unmapped hp, Option.map_none]
    case isFalse => rfl
  | mapped b n =>
    cases hv : locate s.cfg v with
    | unmapped =>
      rw [cell_of_unmapped hv, cell_of_unmapped (by rwa [writeCell_cfg]), Option.map_none, ite_self]
    | mapped q m =>
      have hmem : (s.writeCell p t).mem = s.mem.set b (codecWrite (s.mem.get b) n t) := by rw [State.writeCell, hp]
      rw [cell_of_mapped hv, cell_of_mapped (by rwa [writeCell_cfg]), hmem, Memory.get_set, Option.map_some]
      by_cases hvp : v = valU12 p
      · obtain ⟨rfl, rfl⟩ : q = b ∧ m = n := by simpa [hvp, hp, eq_comm] using hv
        rw [if_pos hvp, if_pos rfl, codecRead_codecWrite (Memory.get_wf _ _ hwf), if_pos rfl]
      · rw [if_neg hvp]
        split
        case isFalse => rfl
        case isTrue hqb =>
          subst hqb
          have hmn : m ≠ n := fun h => hvp (locate_injective hv (h ▸ hp))
          rw [codecRead_codecWrite (Memory.get_wf _ _ hwf), if_neg hmn]

/-- Settles O22: by `cell_writeCell`, `writeCell_eq_with_mem` and `writeCell_wf`. -/
theorem writeIsReadBack : Obligations.WriteIsReadBack := by
  unfold Obligations.WriteIsReadBack
  intro s a t hwf hmapped
  obtain ⟨u, hu⟩ := Option.ne_none_iff_exists'.mp hmapped
  refine ⟨rfl, ?_, fun v hv => ?_, writeCell_eq_with_mem s a t, writeCell_wf s a t hwf⟩
  · rw [State.writeB, cell_writeCell hwf, if_pos rfl, hu, Option.map_some]
  · rw [State.writeB, cell_writeCell hwf, if_neg hv]

/-! ## Which instructions write memory -/

variable {i : Instr} {t : State}

/-- An instruction that is no store leaves memory as it was (R70). -/
theorem Effect.mem (h : Effect i s t) (hst : ∀ r m, i.op ≠ .st r m) : t.mem = s.mem := by
  cases h with
  | store r m db al pc mem hop => exact absurd hop (hst r m)
  | load | transfer => exact setReg_mem _ _ _
  | add | tyxsp | tspyx | jump | noJump | flagSet | invalid => rfl

/-- An instruction whose opcode is that of a store is the store of its operand word (R201). -/
theorem eq_st_of_op {r : Reg} {m : StMode} (h : i.op = .st r m) :
    ∃ w, i = .st r m w ∧ i.operands = [loTryte w, hiTryte w] := by
  cases i <;> cases h <;> exact ⟨_, rfl, rfl⟩

/-- A store that completes writes the cell at its effective address and no other (R187, R201). -/
theorem exec_st_cell (hwf : s.mem.wf = true) {r : Reg} {m : StMode} {w : UWord} (h : exec (.st r m w) s = .next t) {v : Nat}
    (hv : v ≠ valU12 (s.storeAddress m w)) : t.cell v = s.cell v := by
  rw [exec_st, storeMemory_eq] at h
  have hframe := cell_writeCell hwf (s.storeAddress m w) (toBus s.f.bu (s.reg r)) v
  rw [if_neg hv, State.cell, writeCell_cfg] at hframe
  cases h
  exact hframe

/-- Settles O60: by `Effect.mem` and `exec_st_cell`. -/
theorem onlyStoresWriteMemory : Obligations.OnlyStoresWriteMemory := by
  unfold Obligations.OnlyStoresWriteMemory
  intro i s t hwf h
  refine ⟨(exec_effect h).mem, fun r m lo hi hop hoperands v hv => ?_⟩
  obtain ⟨w, rfl, hw⟩ := eq_st_of_op hop
  rw [hw] at hoperands
  cases hoperands
  rw [wordOf_halves] at hv
  exact exec_st_cell hwf h hv

end Sys2Proof.Machine
end

section
/-!
PROOF. The decoder and the encoder (30_encoding.md R80 to R90).

An instruction is its operation, its operand trytes and the tryte that INVALID keeps (`eq_of_op_operands_invalidTryte`). What the
decoder reads is an opcode tryte and the operand trytes of the instruction (`decode_ok_reads`), and such a stream it reads
(`decode_cons_operands`). So both round trips are about the opcode tryte alone: the one that an instruction is written with is read
as its operation (`opcodeTryte_spec`), and under DEFAULT_OPMAP the one that was read is written again (`opcodeTryte_ofOp`).
-/

namespace Sys2Proof.Machine

/-! ## An instruction and its trytes -/

/-- The law of every instruction, collected: its operation and its trytes rebuild it. -/
theorem assembles (i : Instr) : Laws.Assembles.Statement i := by
  open Laws.Assembles in
  exact i.casesOn ldaImm ldaAbs ldaAbsX ldaAbsY ldaInd ldaIndX ldaIndY staAbs staAbsX staAbsY
    ldcImm ldcAbs ldcAbsX ldcAbsY ldcInd ldcIndX ldcIndY stcAbs stcAbsX stcAbsY
    lddImm lddAbs lddAbsX lddAbsY lddInd lddIndX lddIndY stdAbs stdAbsX stdAbsY
    ldxImm ldxAbs ldxAbsX ldxAbsY ldxInd ldxIndX ldxIndY stxAbs stxAbsX stxAbsY
    ldyImm ldyAbs ldyAbsX ldyAbsY ldyInd ldyIndX ldyIndY styAbs styAbsX styAbsY
    add addc addb addd adddc adddb
    tac tad tax tay tca tcd tcx tcy tda tdc tdx tdy txa txc txd txy tya tyc tyd tyx tyxsp tspyx
    jmp bpos bzer bneg bnpos bnzer bnneg bovf bneu bunf bnovf bnneu bnunf bcar bncb bbor bncar bcob bnbor
    setou setcb seti setbu invalid

/-- An instruction is its operation, its operand trytes and the tryte that INVALID keeps (R85). -/
theorem eq_of_op_operands_invalidTryte {i j : Instr} (hop : i.op = j.op) (hoperands : i.operands = j.operands)
    (hinvalid : i.invalidTryte = j.invalidTryte) : i = j := by
  have hi : Instr.ofOp i.op _ _ _ = i := assembles i
  have hj : Instr.ofOp j.op _ _ _ = j := assembles j
  rw [← hi, hop, hoperands, hinvalid, hj]

/-- The operand trytes of an assembled instruction: those that the format of its operation has (R82, R84). -/
theorem operands_ofOp (o : Op) (t0 v1 v2 : Tryte) :
    (Instr.ofOp o t0 v1 v2).operands = [v1, v2].take o.format.operandTrytes := by
  have word : [loTryte (wordOf v1 v2), hiTryte (wordOf v1 v2)] = [v1, v2] := by rw [loTryte_wordOf, hiTryte_wordOf]
  cases o with
  | ld r m =>
    cases m with
    | imm => cases r <;> rfl
    | mem m => cases r <;> cases m <;> exact word
  | st r m => cases r <;> cases m <;> exact word
  | add src k => cases src <;> cases k <;> rfl
  | xfer t => cases t <;> rfl
  | jmp => exact word
  | branch c =>
    obtain ⟨which, value, negated⟩ := c
    cases which <;> cases value <;> cases negated <;> exact word
  | setFlag f => cases f <;> rfl
  | tyxsp | tspyx | invalid => rfl

/-- Only INVALID keeps its opcode tryte (R87). -/
theorem invalidTryte_ofOp (o : Op) (t0 v1 v2 : Tryte) :
    (Instr.ofOp o t0 v1 v2).invalidTryte = if o = .invalid then some t0 else none := by
  cases o with
  | ld r m =>
    cases m with
    | imm => cases r <;> rfl
    | mem m => cases r <;> cases m <;> rfl
  | st r m => cases r <;> cases m <;> rfl
  | add src k => cases src <;> cases k <;> rfl
  | xfer t => cases t <;> rfl
  | branch c =>
    obtain ⟨which, value, negated⟩ := c
    cases which <;> cases value <;> cases negated <;> rfl
  | setFlag f => cases f <;> rfl
  | tyxsp | tspyx | jmp | invalid => rfl

theorem eq_of_invalidTryte_ofOp {o : Op} {t0 v1 v2 t : Tryte} (h : (Instr.ofOp o t0 v1 v2).invalidTryte = some t) :
    t = t0 := by
  rw [invalidTryte_ofOp] at h
  split at h
  · exact (Option.some.inj h).symm
  · cases h

/-- The operand trytes of an instruction are the first two, as far as its format has them (R82). -/
theorem operands_eq_take (i : Instr) :
    i.operands = [i.operands.getD 0 0, i.operands.getD 1 0].take i.op.format.operandTrytes := by
  have hi : Instr.ofOp i.op _ _ _ = i := assembles i
  have h := operands_ofOp i.op (i.invalidTryte.getD 0) (i.operands.getD 0 0) (i.operands.getD 1 0)
  rwa [hi] at h

/-- An instruction has as many operand trytes as its format (R82). -/
theorem operands_length (i : Instr) : i.operands.length = i.op.format.operandTrytes := by
  have hle : i.op.format.operandTrytes ≤ 2 := by cases i.op.format <;> decide
  rw [operands_eq_take, List.length_take]
  exact min_eq_left hle

/-- An instruction is INVALID with its opcode tryte, or it keeps none (R87). -/
theorem invalid_or_not (i : Instr) : (∃ t, i = .invalid t) ∨ (i.op ≠ .invalid ∧ i.invalidTryte = none) := by
  have hi : Instr.ofOp i.op (i.invalidTryte.getD 0) (i.operands.getD 0 0) (i.operands.getD 1 0) = i := assembles i
  by_cases hop : i.op = .invalid
  · rw [hop] at hi
    exact .inl ⟨_, hi.symm⟩
  · have h := invalidTryte_ofOp i.op (i.invalidTryte.getD 0) (i.operands.getD 0 0) (i.operands.getD 1 0)
    rw [hi, if_neg hop] at h
    exact .inr ⟨hop, h⟩

/-- The operation and the operand trytes of `i` make `i` of any opcode tryte, which INVALID alone looks at (R85). -/
theorem ofOp_eq_self {i : Instr} {t0 : Tryte} (h : ∀ t, i.invalidTryte = some t → t = t0) :
    Instr.ofOp i.op t0 (i.operands.getD 0 0) (i.operands.getD 1 0) = i := by
  refine eq_of_op_operands_invalidTryte (op_ofOp _ _ _ _) ?_ ?_
  · rw [operands_ofOp, ← operands_eq_take]
  · rw [invalidTryte_ofOp]
    obtain ⟨t, rfl⟩ | ⟨hop, hnone⟩ := invalid_or_not i
    · exact congrArg some (h t rfl).symm
    · rw [if_neg hop, hnone]

/-! ## What the decoder accepts -/

/-- A bind in the decoder that answers a value answers one on both sides. -/
theorem decode_bind_ok {α β : Type} {x : Except DecodeError α} {g : α → Except DecodeError β} {b : β} :
    (x >>= g) = .ok b ↔ ∃ a, x = .ok a ∧ g a = .ok b := by
  cases x <;> simp [bind, Except.bind]

/-- The next tryte of a stream is taken where it is a valid pattern (R81). -/
theorem nextTryte_ok_iff {k : Nat} {ts rest : List Tryte} {t : Tryte} :
    nextTryte k ts = .ok (t, rest) ↔ ts = t :: rest ∧ validTryte t = true := by
  cases ts with
  | nil => simp [nextTryte]
  | cons u us =>
    simp only [nextTryte, List.cons.injEq]
    split <;> grind

/-- What the decoder has read: a valid opcode tryte, and the instruction that its operation makes of the trytes behind it, of
which the format's operand trytes are valid and gone (R81, R82, R85). -/
theorem decode_ok_reads {m : Opmap} {ts rest : List Tryte} {i : Instr} (h : decode m ts = .ok (i, rest)) :
    ∃ t0 v1 v2, i = Instr.ofOp (opOf m (valU t0)) t0 v1 v2 ∧ ts = t0 :: (i.operands ++ rest) ∧
      validTryte t0 = true ∧ i.operandsValid = true := by
  simp only [decode, decode_bind_ok, Prod.exists, nextTryte_ok_iff] at h
  obtain ⟨t0, us, ⟨rfl, ht0⟩, h⟩ := h
  cases hf : (opOf m (valU t0)).format <;>
    simp only [hf, decode_bind_ok, Prod.exists, nextTryte_ok_iff, Except.ok.injEq, Prod.mk.injEq] at h
  case imp =>
    obtain ⟨rfl, rfl⟩ := h
    exact ⟨t0, 0, 0, rfl, by simp [Instr.operandsValid, operands_ofOp, hf, Format.operandTrytes, ht0]⟩
  case imm | immb =>
    obtain ⟨v, us, ⟨rfl, hv⟩, rfl, rfl⟩ := h
    exact ⟨t0, v, 0, rfl, by simp [Instr.operandsValid, operands_ofOp, hf, Format.operandTrytes, ht0, hv]⟩
  case abs3 =>
    obtain ⟨lo, us, ⟨rfl, hlo⟩, hi, us, ⟨rfl, hhi⟩, rfl, rfl⟩ := h
    exact ⟨t0, lo, hi, rfl, by simp [Instr.operandsValid, operands_ofOp, hf, Format.operandTrytes, ht0, hlo, hhi]⟩

/-- An opcode tryte that the table reads as the operation of `i`, followed by the valid operand trytes of `i`, is read as `i`
(R82, R84, R85). -/
theorem decode_cons_operands {m : Opmap} {t0 : Tryte} {i : Instr} (ht0 : validTryte t0 = true)
    (hvalid : i.operandsValid = true) (hop : opOf m (valU t0) = i.op) (hkept : ∀ t, i.invalidTryte = some t → t = t0)
    (rest : List Tryte) : decode m (t0 :: (i.operands ++ rest)) = .ok (i, rest) := by
  have hself := congrArg (fun j => (Except.ok (j, rest) : Except DecodeError (Instr × List Tryte))) (ofOp_eq_self hkept)
  have hlen := operands_length i
  simp only [decode, decode_bind_ok, Prod.exists, nextTryte_ok_iff]
  refine ⟨t0, _, ⟨rfl, ht0⟩, ?_⟩
  rw [hop]
  rw [Instr.operandsValid] at hvalid
  generalize i.operands = vs at hself hlen hvalid ⊢
  cases hf : i.op.format <;> rw [hf] at hlen <;> simp only [decode_bind_ok, Prod.exists, nextTryte_ok_iff]
  case imp =>
    obtain rfl := List.length_eq_zero_iff.mp hlen
    exact hself
  case imm | immb =>
    obtain ⟨v, rfl⟩ := List.length_eq_one_iff.mp hlen
    simp only [List.all_cons, Bool.and_eq_true] at hvalid
    obtain ⟨hv, -⟩ := hvalid
    exact ⟨v, _, ⟨rfl, hv⟩, hself⟩
  case abs3 =>
    obtain ⟨lo, hi, rfl⟩ := List.length_eq_two.mp hlen
    simp only [List.all_cons, Bool.and_eq_true] at hvalid
    obtain ⟨hlo, hhi, -⟩ := hvalid
    exact ⟨lo, _, ⟨rfl, hlo⟩, hi, _, ⟨rfl, hhi⟩, hself⟩

/-! ## The opcode tryte -/

/-- A valid tryte is the encoding of its value (R102). -/
theorem encU_valU {t : Tryte} (h : validTryte t = true) : encU (valU t) = t := by
  have hlt : valU t < tryteRange := digitsValU_lt 6 _ h
  have hmod : ((valU t : Int) % tryteRange).toNat = valU t := by
    rw [← Int.natCast_mod, Int.toNat_natCast, Nat.mod_eq_of_lt hlt]
  rw [encU, hmod, valU, digitsEnc_digitsValU 6 _ h t.isLt, BitVec.ofNat_toNat, BitVec.setWidth_eq]

/-- The value of an encoded number below 729 is the number (R106). -/
theorem valU_encU {n : Nat} (h : n < tryteRange) : valU (encU n) = n := by
  have hmod : ((n : Int) % tryteRange).toNat = n := by rw [← Int.natCast_mod, Int.toNat_natCast, Nat.mod_eq_of_lt h]
  rw [encU, hmod, valU, toNat_ofNat_digitsEnc6, digitsValU_digitsEnc]
  exact Nat.mod_eq_of_lt h

/-- The numbers of a dispatch table are below 729 (R86). -/
theorem lt_of_mem_opmap {m : Opmap} (hm : opmapOk m = true) {e : Nat × Op} (he : e ∈ m) : e.1 < tryteRange := by
  induction m with
  | nil => cases he
  | cons e' rest ih =>
    simp only [opmapOk, Bool.and_eq_true, decide_eq_true_eq] at hm
    obtain ⟨⟨hlt, -⟩, hrest⟩ := hm
    obtain rfl | he := List.mem_cons.mp he
    · exact hlt
    · exact ih hrest he

/-- An operation other than INVALID that a lookup gives stands in the table (R86, R87). -/
theorem mem_opmap_of_opOf {m : Opmap} {n : Nat} (h : opOf m n ≠ .invalid) : (n, opOf m n) ∈ m := by
  induction m with
  | nil => exact absurd rfl h
  | cons e rest ih =>
    unfold opOf at h ⊢
    split
    next hk => exact hk ▸ List.mem_cons_self
    next hk =>
      rw [if_neg hk] at h
      exact List.mem_cons_of_mem _ (ih h)

/-- A number that OPMAP^-1 gives is below 729 and looked up as the operation (R86). -/
theorem opcodeOf_spec {m : Opmap} {o : Op} {n : Nat} (hm : opmapOk m = true) (h : opcodeOf m o = some n) :
    n < tryteRange ∧ opOf m n = o := by
  obtain ⟨e, he, rfl⟩ := Option.map_eq_some_iff.mp h
  have hfound := List.find?_some he
  simp only [Bool.and_eq_true, decide_eq_true_eq] at hfound
  exact ⟨lt_of_mem_opmap hm (List.mem_of_find?_eq_some he), hfound.2⟩

/-- The opcode tryte of an instruction other than INVALID (R86). -/
theorem opcodeTryte_of_none {m : Opmap} {i : Instr} (h : i.invalidTryte = none) :
    opcodeTryte m i = (opcodeOf m i.op).map fun n : Nat => encU (n : Int) := by
  rw [opcodeTryte, h]
  cases opcodeOf m i.op <;> rfl

/-- The opcode tryte of a well-formed instruction is valid and read as its operation; INVALID keeps its own (R86, R87). -/
theorem opcodeTryte_spec {m : Opmap} {i : Instr} {t0 : Tryte} (hm : opmapOk m = true) (hi : i.invalidOk m = true)
    (h : opcodeTryte m i = some t0) :
    validTryte t0 = true ∧ opOf m (valU t0) = i.op ∧ ∀ t, i.invalidTryte = some t → t = t0 := by
  obtain ⟨t, rfl⟩ | ⟨hop, hnone⟩ := invalid_or_not i
  · cases h
    simp only [Instr.invalidOk, Instr.invalidTryte, Option.all_some, Bool.and_eq_true, decide_eq_true_eq] at hi
    obtain ⟨hvalid, hlook⟩ := hi
    exact ⟨hvalid, hlook, fun t ht => (Option.some.inj ht).symm⟩
  · rw [opcodeTryte_of_none hnone, Option.map_eq_some_iff] at h
    obtain ⟨n, hn, rfl⟩ := h
    obtain ⟨hlt, hlook⟩ := opcodeOf_spec hm hn
    refine ⟨validTryte_encU _, ?_, ?_⟩
    · rw [valU_encU hlt, hlook]
    · rw [hnone]
      exact fun t ht => nomatch ht

/-- The encoding of an instruction is its opcode tryte and its operand trytes (R80, R82). -/
theorem encodeFor_eq_some_iff {m : Opmap} {i : Instr} {ts : List Tryte} :
    encodeFor m i = some ts ↔ ∃ t0, opcodeTryte m i = some t0 ∧ t0 :: i.operands = ts :=
  Option.map_eq_some_iff

/-- A well-formed instruction has valid operand trytes, and the tryte that INVALID keeps is one that the table leaves to it
(R85, R87). -/
theorem wellFormedFor_iff {m : Opmap} {i : Instr} :
    i.wellFormedFor m = true ↔ i.operandsValid = true ∧ i.invalidOk m = true := by
  rw [Instr.wellFormedFor, Bool.and_eq_true]

/-- Settles O24: the opcode tryte written is read as the operation (`opcodeTryte_spec`), and the operand trytes follow. -/
theorem decodeOfEncode : Obligations.DecodeOfEncode := by
  unfold Obligations.DecodeOfEncode
  intro m i ts rest hm hi h
  obtain ⟨t0, ht0, rfl⟩ := encodeFor_eq_some_iff.mp h
  obtain ⟨hvalid, hinvalid⟩ := wellFormedFor_iff.mp hi
  obtain ⟨hv0, hop, hkept⟩ := opcodeTryte_spec hm hinvalid ht0
  exact decode_cons_operands hv0 hvalid hop hkept rest

/-! ## The default table -/

theorem opmapOk_defaultOpmap : opmapOk defaultOpmap = true := by decide +kernel

/-- DEFAULT_OPMAP gives each of its operations one number (R90). -/
theorem opcodeOf_of_mem_defaultOpmap : ∀ e ∈ defaultOpmap, opcodeOf defaultOpmap e.2 = some e.1 := by decide +kernel

/-- DEFAULT_OPMAP assigns a number to every operation but INVALID (R90). -/
theorem exists_opcodeOf_defaultOpmap {o : Op} (h : o ≠ .invalid) : ∃ n, opcodeOf defaultOpmap o = some n := by
  rw [← Option.isSome_iff_exists]
  cases o with
  | ld r m =>
    cases m with
    | imm => cases r <;> decide +kernel
    | mem m => cases r <;> cases m <;> decide +kernel
  | st r m => cases r <;> cases m <;> decide +kernel
  | add src k => cases src <;> cases k <;> decide +kernel
  | xfer t => cases t <;> decide +kernel
  | branch c =>
    obtain ⟨which, value, negated⟩ := c
    cases which <;> cases value <;> cases negated <;> decide +kernel
  | setFlag f => cases f <;> decide +kernel
  | tyxsp | tspyx | jmp => decide +kernel
  | invalid => exact absurd rfl h

/-- Every instruction has an opcode tryte under DEFAULT_OPMAP (R90; the tryte that INVALID keeps is log 9). -/
theorem exists_opcodeTryte_defaultOpmap (i : Instr) : ∃ t0, opcodeTryte defaultOpmap i = some t0 := by
  obtain ⟨t, rfl⟩ | ⟨hop, hnone⟩ := invalid_or_not i
  · exact ⟨t, rfl⟩
  · obtain ⟨n, hn⟩ := exists_opcodeOf_defaultOpmap hop
    exact ⟨encU n, by rw [opcodeTryte_of_none hnone, hn, Option.map_some]⟩

theorem encode_of_opcodeTryte {i : Instr} {t0 : Tryte} (h : opcodeTryte defaultOpmap i = some t0) :
    encodeFor defaultOpmap i = some (encode i) ∧ encode i = t0 :: i.operands := by
  have hsome := encodeFor_eq_some_iff.mpr ⟨t0, h, rfl⟩
  rw [encode, hsome]
  exact ⟨rfl, rfl⟩

/-- Settles O25: the encoding exists (`exists_opcodeTryte_defaultOpmap`), and O24 reads it back. -/
theorem everyInstructionEncodes : Obligations.EveryInstructionEncodes := by
  unfold Obligations.EveryInstructionEncodes
  intro i hi
  obtain ⟨hvalid, hinvalid⟩ := wellFormedFor_iff.mp hi
  obtain ⟨t0, ht0⟩ := exists_opcodeTryte_defaultOpmap i
  obtain ⟨hv0, -, -⟩ := opcodeTryte_spec opmapOk_defaultOpmap hinvalid ht0
  obtain ⟨hsome, hencode⟩ := encode_of_opcodeTryte ht0
  refine ⟨hsome, ?_, ?_, ?_⟩
  · rw [hencode, List.length_cons, operands_length, Op.length, Nat.add_comm]
  · rw [hencode, List.all_cons, hv0]
    exact hvalid
  · rw [← List.append_nil (encode i)]
    exact decodeOfEncode _ _ _ [] opmapOk_defaultOpmap hi hsome

/-- An opcode tryte that DEFAULT_OPMAP reads as an operation is the opcode tryte of the instruction assembled from it (R86,
R87). -/
theorem opcodeTryte_ofOp {t0 : Tryte} (h : validTryte t0 = true) (v1 v2 : Tryte) :
    opcodeTryte defaultOpmap (Instr.ofOp (opOf defaultOpmap (valU t0)) t0 v1 v2) = some t0 := by
  have hkept := invalidTryte_ofOp (opOf defaultOpmap (valU t0)) t0 v1 v2
  split at hkept
  next hinvalid => rw [hinvalid]; rfl
  next hne =>
    rw [opcodeTryte_of_none hkept, op_ofOp, opcodeOf_of_mem_defaultOpmap _ (mem_opmap_of_opOf hne), Option.map_some,
      encU_valU h]

/-- What is assembled from a valid opcode tryte is INVALID only where the table leaves the tryte to it (R87). -/
theorem invalidOk_ofOp (m : Opmap) {t0 : Tryte} (h : validTryte t0 = true) (v1 v2 : Tryte) :
    (Instr.ofOp (opOf m (valU t0)) t0 v1 v2).invalidOk m = true := by
  rw [Instr.invalidOk, invalidTryte_ofOp]
  split
  next hinvalid => rw [Option.all_some, h, hinvalid]; rfl
  next => rfl

/-- Settles O26: the tryte that the decoder read as the opcode is the one that the encoder writes (`opcodeTryte_ofOp`). -/
theorem encodeOfDecode : Obligations.EncodeOfDecode := by
  unfold Obligations.EncodeOfDecode
  intro ts rest i h
  obtain ⟨t0, v1, v2, rfl, rfl, ht0, hvalid⟩ := decode_ok_reads h
  refine ⟨wellFormedFor_iff.mpr ⟨hvalid, invalidOk_ofOp _ ht0 v1 v2⟩, ?_⟩
  rw [(encode_of_opcodeTryte (opcodeTryte_ofOp ht0 v1 v2)).2, List.cons_append]

/-! ## The opcode tryte decides -/

/-- Settles O27: the instruction read is the one that the table's operation makes of the three trytes. -/
theorem opcodeTryteDecides : Obligations.OpcodeTryteDecides := by
  unfold Obligations.OpcodeTryteDecides
  intro m t0 t1 t2 rest
  refine ⟨fun h0 => ?_, fun h0 h1 h2 => ?_⟩
  · have hbad : nextTryte 0 (t0 :: t1 :: t2 :: rest) = .error (.codeThree 0) := if_neg (by rw [h0]; decide)
    rw [decode, hbad]
    rfl
  · generalize ho : opOf m (valU t0) = o
    have hop := op_ofOp o t0 t1 t2
    have hoperands := operands_ofOp o t0 t1 t2
    have hrest : t1 :: t2 :: rest = (Instr.ofOp o t0 t1 t2).operands ++ (t0 :: t1 :: t2 :: rest).drop o.length := by
      rw [hoperands, Op.length]
      cases o.format <;> rfl
    have hvalid : (Instr.ofOp o t0 t1 t2).operandsValid = true := by
      rw [Instr.operandsValid, hoperands]
      cases o.format <;> simp [Format.operandTrytes, h1, h2]
    refine ⟨Instr.ofOp o t0 t1 t2, ?_, hop, ?_⟩
    · have hread := decode_cons_operands h0 hvalid (ho.trans hop.symm) (fun _ => eq_of_invalidTryte_ofOp)
        ((t0 :: t1 :: t2 :: rest).drop o.length)
      rwa [← hrest] at hread
    · rw [hoperands, Op.length, Nat.add_sub_cancel_left]

/-! ## Words written out from the spec -/

/-- Settles O28: the decoder run on the words. -/
theorem writtenOutWordsDecode : Obligations.WrittenOutWordsDecode := by
  unfold Obligations.WrittenOutWordsDecode
  decide +kernel

end Sys2Proof.Machine
end

section
/-!
PROOF. The septemvigesimal literals (30_encoding.md R89): three trits make a digit and six a tryte, so digits, trytes and words
are joined alike, by `digitsEnc_join`.
-/

namespace Sys2Proof.Machine

/-- The packed digits of a number: its low `j` digits, and above them those of the quotient (R100). -/
theorem digitsEnc_add (j k v : Nat) : digitsEnc (j + k) v = digitsEnc j v + 4 ^ j * digitsEnc k (v / 3 ^ j) := by
  induction j generalizing v with
  | zero => simp [digitsEnc]
  | succ j ih =>
    rw [Nat.add_right_comm]
    simp only [digitsEnc, ih, pow_succ', Nat.div_div_eq_div_mul]
    ring

/-- The digits above the low `k` do not count. -/
theorem digitsEnc_mod (k v : Nat) : digitsEnc k (v % 3 ^ k) = digitsEnc k v := by
  induction k generalizing v with
  | zero => rfl
  | succ k ih =>
    have hlow : v % 3 ^ (k + 1) % 3 = v % 3 := Nat.mod_mod_of_dvd v (dvd_pow_self 3 k.succ_ne_zero)
    have hrest : v % 3 ^ (k + 1) / 3 = v / 3 % 3 ^ k := by rw [pow_succ', Nat.mod_mul_right_div_self]
    simp only [digitsEnc, hlow, hrest, ih]

/-- The packed digits of a number made of its low `j` digits `l` and the others `h` (R100). -/
theorem digitsEnc_join (j k h : Nat) {l : Nat} (hl : l < 3 ^ j) :
    digitsEnc (j + k) (3 ^ j * h + l) = digitsEnc j l + 4 ^ j * digitsEnc k h := by
  rw [digitsEnc_add, ← digitsEnc_mod j, Nat.mul_add_mod, Nat.mod_eq_of_lt hl, Nat.mul_add_div (by positivity),
    Nat.div_eq_of_lt hl, Nat.add_zero]

/-- The packed bits of an encoded number (R106). -/
theorem toNat_encU (n : Nat) : (encU n).toNat = digitsEnc 6 n := by
  rw [encU, toNat_ofNat_digitsEnc6, ← Int.natCast_mod, Int.toNat_natCast]
  exact digitsEnc_mod 6 n

theorem toNat_encU12 (n : Nat) : (encU12 n).toNat = digitsEnc 12 n := by
  rw [encU12, toNat_ofNat_digitsEnc12, ← Int.natCast_mod, Int.toNat_natCast]
  exact digitsEnc_mod 12 n

/-- The value of an encoded number below 531441 is the number (R106). -/
theorem valU12_encU12 {n : Nat} (h : n < wordRange) : valU12 (encU12 n) = n := by
  rw [valU12, toNat_encU12, digitsValU_digitsEnc]
  exact Nat.mod_eq_of_lt h

theorem toNat_wordOf (lo hi : Tryte) : (wordOf lo hi).toNat = lo.toNat + 4096 * hi.toNat := by
  rw [wordOf, BitVec.toNat_append, Nat.shiftLeft_eq, Nat.mul_comm, ← Nat.two_pow_add_eq_or_of_lt lo.isLt]
  omega

/-- An encoded word is its two trytes (R113). -/
theorem encU12_eq_wordOf (h : Nat) {l : Nat} (hl : l < tryteRange) :
    encU12 (729 * h + l : Nat) = wordOf (encU l) (encU h) := by
  apply BitVec.eq_of_toNat_eq
  rw [toNat_encU12, toNat_wordOf, toNat_encU, toNat_encU]
  exact digitsEnc_join 6 6 h hl

theorem septemTryte_eq (h l : Nat) : septemTryte h l = encU (27 * h + l : Nat) := by
  rw [septemTryte, Nat.cast_add, Nat.cast_mul, Nat.cast_ofNat]

/-- A septemvigesimal digit is three trits, the left one the upper three (R89). -/
theorem toNat_septemTryte (h : Nat) {l : Nat} (hl : l < 27) :
    (septemTryte h l).toNat = digitsEnc 3 l + 64 * digitsEnc 3 h := by
  rw [septemTryte_eq, toNat_encU]
  exact digitsEnc_join 3 3 h hl

theorem septemWord_eq (g3 g2 g1 g0 : Nat) :
    septemWord g3 g2 g1 g0 = encU12 (729 * (27 * g3 + g2) + (27 * g1 + g0) : Nat) := by
  rw [septemWord]
  congr 1
  push_cast
  ring

/-- Settles O29: a digit is three trits (`toNat_septemTryte`), and a word is its two trytes (`encU12_eq_wordOf`). -/
theorem septemvigesimalLiterals : Obligations.SeptemvigesimalLiterals := by
  unfold Obligations.SeptemvigesimalLiterals
  refine ⟨fun h l hh hl => ?_, fun g3 g2 g1 g0 h3 h2 h1 h0 => ?_, by decide, by decide, by decide, by decide, by decide,
    by decide⟩
  · have hlt : 27 * h + l < 729 := by omega
    have hbits := toNat_septemTryte h hl
    have hlow := digitsEnc_lt 3 l
    exact ⟨by rw [septemTryte_eq, valU_encU hlt], by omega, by omega⟩
  · have hlt : 729 * (27 * g3 + g2) + (27 * g1 + g0) < 531441 := by omega
    have hlow : 27 * g1 + g0 < 729 := by omega
    constructor
    · rw [septemWord_eq, valU12_encU12 hlt]
      ring
    · rw [septemWord_eq, encU12_eq_wordOf _ hlow, septemTryte_eq, septemTryte_eq]

end Sys2Proof.Machine
end

section
/-!
PROOF. The numeric layer (40_alu_numeric.md R101 to R122).

Two facts carry the statements. An encoder answers the pattern of its argument modulo the range, so its value is that residue
(`coe_valU_encU`, `coe_valU12_encU12`); and a valid pattern is the encoding of every number congruent to its value
(`encU_eq_of_emod`, `encU12_eq_of_emod`). A balanced number is its pattern's unbalanced number less 364 (`valB_eq`,
`encB_eq_encU`), and a word is its two trytes (`valU12_eq_halves`, `encU12_eq_wordOf_ediv`), so both come back to the UTryte.
-/

namespace Sys2Proof.Machine

/-! ## The digit recursions, field by field -/

theorem codeAt_zero (p : Nat) : codeAt p 0 = p % 4 := by rw [codeAt, pow_zero, Nat.div_one]

theorem codeAt_succ (p i : Nat) : codeAt p (i + 1) = codeAt (p / 4) i := by
  rw [codeAt, codeAt, pow_succ', Nat.div_div_eq_div_mul]

/-- Field `i` of an encoding is digit `i` in base 3 (R105, R106). -/
theorem codeAt_digitsEnc {k i : Nat} (v : Nat) (hi : i < k) : codeAt (digitsEnc k v) i = v / 3 ^ i % 3 := by
  induction k generalizing v i with
  | zero => omega
  | succ k ih =>
    cases i with
    | zero => rw [codeAt_zero, digitsEnc, pow_zero, Nat.div_one]; omega
    | succ i =>
      have hrest : digitsEnc (k + 1) v / 4 = digitsEnc k (v / 3) := by rw [digitsEnc]; omega
      rw [codeAt_succ, hrest, ih _ (by omega), pow_succ', Nat.div_div_eq_div_mul]

theorem digitsValU_eq_sum (k p : Nat) : digitsValU k p = ∑ i ∈ Finset.range k, codeAt p i * 3 ^ i := by
  induction k generalizing p with
  | zero => rfl
  | succ k ih =>
    simp only [digitsValU, ih, Finset.sum_range_succ', codeAt_succ, codeAt_zero, Finset.mul_sum, pow_succ]
    rw [pow_zero, mul_one, add_comm]
    congr 1
    exact Finset.sum_congr rfl fun i _ => by ring

/-- The value of `j + k` fields is that of the low `j` fields and, weighted, that of the others (R108). -/
theorem digitsValU_add (j k p : Nat) :
    digitsValU (j + k) p = digitsValU j p + 3 ^ j * digitsValU k (p / 4 ^ j) := by
  induction j generalizing p with
  | zero => simp [digitsValU]
  | succ j ih =>
    rw [Nat.add_right_comm]
    simp only [digitsValU, ih, pow_succ', Nat.div_div_eq_div_mul]
    ring

/-- Bits above the low `k` fields do not count. -/
theorem digitsValU_mod (k p : Nat) : digitsValU k (p % 4 ^ k) = digitsValU k p := by
  induction k generalizing p with
  | zero => rfl
  | succ k ih =>
    have hlow : p % 4 ^ (k + 1) % 4 = p % 4 := Nat.mod_mod_of_dvd p (dvd_pow_self 4 k.succ_ne_zero)
    have hrest : p % 4 ^ (k + 1) / 4 = p / 4 % 4 ^ k := by rw [pow_succ', Nat.mod_mul_right_div_self]
    simp only [digitsValU, hlow, hrest, ih]

/-! ## UTryte: value and encoding modulo 729 -/

theorem toNat_encU_emod (n : Int) : (encU n).toNat = digitsEnc 6 (n % 729).toNat := toNat_ofNat_digitsEnc6 _

/-- The value of an encoding, for every integer (R106). -/
theorem coe_valU_encU (n : Int) : (valU (encU n) : Int) = n % 729 := by
  rw [valU, toNat_encU_emod, digitsValU_digitsEnc]
  omega

theorem encU_congr {m n : Int} (h : m % 729 = n % 729) : encU m = encU n :=
  BitVec.eq_of_toNat_eq (by rw [toNat_encU_emod, toNat_encU_emod, h])

theorem valU_lt {u : UTryte} (h : validTryte u = true) : valU u < 729 := digitsValU_lt 6 _ h

/-- A valid pattern is the encoding of every number congruent to its value (R102, R106). -/
theorem encU_eq_of_emod {u : UTryte} (hu : validTryte u = true) {n : Int} (h : n % 729 = valU u) : encU n = u := by
  have hlt := valU_lt hu
  calc encU n = encU (valU u) := encU_congr (by omega)
    _ = u := encU_valU hu

/-! ## UWord: value and encoding modulo 531441, and the halves -/

theorem toNat_encU12_emod (n : Int) : (encU12 n).toNat = digitsEnc 12 (n % 531441).toNat := toNat_ofNat_digitsEnc12 _

/-- The value of an encoding, for every integer (R106). -/
theorem coe_valU12_encU12 (n : Int) : (valU12 (encU12 n) : Int) = n % 531441 := by
  rw [valU12, toNat_encU12_emod, digitsValU_digitsEnc]
  omega

theorem encU12_congr {m n : Int} (h : m % 531441 = n % 531441) : encU12 m = encU12 n :=
  BitVec.eq_of_toNat_eq (by rw [toNat_encU12_emod, toNat_encU12_emod, h])

theorem valU12_lt {w : UWord} (h : validWord w = true) : valU12 w < 531441 := digitsValU_lt 12 _ h

theorem encU12_valU12 {w : UWord} (h : validWord w = true) : encU12 (valU12 w) = w :=
  BitVec.eq_of_toNat_eq (by rw [toNat_encU12, valU12, digitsEnc_digitsValU 12 _ h w.isLt])

/-- A valid word is the encoding of every number congruent to its value (R103, R106). -/
theorem encU12_eq_of_emod {w : UWord} (hw : validWord w = true) {n : Int} (h : n % 531441 = valU12 w) : encU12 n = w := by
  have hlt := valU12_lt hw
  calc encU12 n = encU12 (valU12 w) := encU12_congr (by omega)
    _ = w := encU12_valU12 hw

/-- The value of a joined word (R103). -/
theorem valU12_wordOf (lo hi : UTryte) : valU12 (wordOf lo hi) = valU lo + 729 * valU hi := by
  have hlo := lo.isLt
  have hlow : digitsValU 6 (lo.toNat + 4096 * hi.toNat) = valU lo := by
    rw [← digitsValU_mod, valU]
    congr 1
    omega
  have hhigh : (lo.toNat + 4096 * hi.toNat) / 4 ^ 6 = hi.toNat := by omega
  rw [valU12, toNat_wordOf, digitsValU_add 6 6, hlow, hhigh]
  rfl

theorem valU12_eq_halves (w : UWord) : valU12 w = valU (loTryte w) + 729 * valU (hiTryte w) := by
  rw [← valU12_wordOf, wordOf_halves]

/-- The halves of an encoded word are the encodings of the number and of its quotient by 729, whatever its sign (R113, R114). -/
theorem encU12_eq_wordOf_ediv (n : Int) : encU12 n = wordOf (encU n) (encU (n / 729)) := by
  refine encU12_eq_of_emod (validWord_wordOf (validTryte_encU _) (validTryte_encU _)) ?_
  rw [valU12_wordOf]
  push_cast
  rw [coe_valU_encU, coe_valU_encU]
  omega

/-! ## Tryte: the balanced reading is the unbalanced one less 364 -/

/-- The two readings of one pattern differ by 364 (R116). -/
theorem valB_eq (t : Tryte) : valB t = (valU t : Int) - 364 := digitsValB_eq 6 t.toNat

/-- The balanced value as a digit sum: the codes less 1 are the digits (R107). -/
theorem valB_eq_sum (b : Tryte) : valB b = ∑ i ∈ Finset.range 6, ((codeAt b.toNat i : Int) - 1) * 3 ^ i := by
  rw [valB_eq, valU, digitsValU_eq_sum]
  simp only [Finset.sum_range_succ, Finset.sum_range_zero]
  push_cast
  ring

theorem wrapB_eq (n : Int) : wrapB n = (n + 364) % 729 - 364 := rfl

/-- The balanced encoding is the unbalanced one of the number plus 364 (R105, R106). -/
theorem encB_eq_encU (n : Int) : encB n = encU (n + 364) := by
  rw [encB, wrapB, Int.sub_add_cancel, encU]

/-- The value of a balanced encoding, for every integer (R105). -/
theorem valB_encB (n : Int) : valB (encB n) = wrapB n := by
  rw [valB_eq, encB_eq_encU, coe_valU_encU, wrapB_eq]

theorem valB_bounds {t : Tryte} (h : validTryte t = true) : -364 ≤ valB t ∧ valB t ≤ 364 := by
  have hlt := valU_lt h
  rw [valB_eq]
  omega

/-- A valid pattern is the balanced encoding of every number congruent to its value (R101, R105). -/
theorem encB_eq_of_emod {t : Tryte} (ht : validTryte t = true) {n : Int} (h : (n - valB t) % 729 = 0) : encB n = t := by
  have hlt := valU_lt ht
  rw [valB_eq] at h
  rw [encB_eq_encU]
  exact encU_eq_of_emod ht (by omega)

/-! ## The statements about encodings and values -/

/-- Settles O1: a balanced encoding is an unbalanced one (`encB_eq_encU`). -/
theorem balancedEncoding : Obligations.BalancedEncoding := by
  unfold Obligations.BalancedEncoding
  intro n
  have hwrap := wrapB_eq n
  refine ⟨by omega, by omega, by omega, valB_encB n, validTryte_encB n, fun i hi => ?_⟩
  rw [encB_eq_encU, toNat_encU_emod, codeAt_digitsEnc _ hi, hwrap, Int.sub_add_cancel]

/-- Settles O2: the values are the residues, and the fields are the digits (`codeAt_digitsEnc`). -/
theorem unbalancedEncoding : Obligations.UnbalancedEncoding := by
  unfold Obligations.UnbalancedEncoding
  intro n
  refine ⟨coe_valU_encU n, coe_valU12_encU12 n, validTryte_encU n, validWord_encU12 n, fun i hi => ?_, fun i hi => ?_⟩
  · rw [toNat_encU_emod, codeAt_digitsEnc _ hi]
  · rw [toNat_encU12_emod, codeAt_digitsEnc _ hi]

/-- Settles O3: the values are digit sums by their recursion, and an encoded value in range is its own residue. -/
theorem decodedValuesAreDigitSums : Obligations.DecodedValuesAreDigitSums := by
  unfold Obligations.DecodedValuesAreDigitSums
  refine ⟨valB_eq_sum, fun b => digitsValU_eq_sum 6 _, fun w => digitsValU_eq_sum 12 _,
    fun v hlow hhigh => ?_, fun v hv => ?_, fun v hv => ?_⟩
  · rw [valB_encB, wrapB_eq]
    omega
  · exact valU_encU (Nat.lt_succ_of_le hv)
  · exact valU12_encU12 (Nat.lt_succ_of_le hv)

/-- Settles O4: a valid pattern encodes its value, and a word is its halves. -/
theorem validPatternsAndValuesCorrespond : Obligations.ValidPatternsAndValuesCorrespond := by
  unfold Obligations.ValidPatternsAndValuesCorrespond
  refine ⟨fun t ht => ?_, fun u hu => ?_, fun w hw => ?_, valU12_eq_halves⟩
  · obtain ⟨hlow, hhigh⟩ := valB_bounds ht
    exact ⟨hlow, hhigh, encB_eq_of_emod ht (by omega)⟩
  · exact ⟨Nat.le_of_lt_succ (valU_lt hu), encU_valU hu⟩
  · exact ⟨Nat.le_of_lt_succ (valU12_lt hw), encU12_valU12 hw⟩

/-! ## Conversions -/

/-- The value of a Tryte converted to a UTryte (R110). -/
theorem coe_valU_toUTryte (t : Tryte) : (valU (toUTryte t) : Int) = valB t % 729 := coe_valU_encU _

/-- The value of a UTryte converted to a Tryte (R111). -/
theorem valB_toTryte (u : UTryte) : valB (toTryte u) = wrapB (valU u) := valB_encB _

theorem toTryte_toUTryte {t : Tryte} (h : validTryte t = true) : toTryte (toUTryte t) = t :=
  encB_eq_of_emod h (by rw [coe_valU_toUTryte]; omega)

theorem toUTryte_toTryte {u : UTryte} (h : validTryte u = true) : toUTryte (toTryte u) = u := by
  have hlt := valU_lt h
  exact encU_eq_of_emod h (by rw [valB_toTryte, wrapB_eq]; omega)

/-- Settles O5: each conversion encodes the value of the other type, and values of both types agree modulo 729. -/
theorem tryteConversions : Obligations.TryteConversions := by
  unfold Obligations.TryteConversions
  refine ⟨fun t => ⟨coe_valU_toUTryte t, ?_⟩, fun u => ⟨valB_toTryte u, encB_eq_encU _⟩, fun t => ?_, fun t ht => ?_,
    fun u hu => ?_⟩
  · rw [coe_valU_toUTryte, valB_eq]
  · rw [valB_eq, Int.sub_add_cancel]
  · obtain ⟨hlow, hhigh⟩ := valB_bounds ht
    rw [coe_valU_toUTryte]
    exact ⟨toTryte_toUTryte ht, fun hpos => by omega, fun hneg => by omega⟩
  · have hlt := valU_lt hu
    rw [valB_toTryte, wrapB_eq]
    exact ⟨toUTryte_toTryte hu, fun hsmall => by omega, fun hlarge => by omega⟩

/-- Zero extension puts a zero tryte on top (R112). -/
theorem toUWordZ_eq_wordOf (u : UTryte) : toUWordZ u = wordOf u 0x000#12 := by
  apply BitVec.eq_of_toNat_eq
  have hlt := u.isLt
  rw [toNat_wordOf, toUWordZ, BitVec.toNat_setWidth, Nat.mod_eq_of_lt (by omega)]
  rfl

/-- Sign extension puts the sign on top: all codes 2 for a negative value, all codes 0 otherwise (R114). -/
theorem toUWordS_eq_wordOf {t : Tryte} (h : validTryte t = true) :
    toUWordS t = wordOf (toUTryte t) (if valB t < 0 then 0xAAA#12 else 0x000#12) := by
  obtain ⟨hlow, hhigh⟩ := valB_bounds h
  rw [toUWordS, encU12_eq_wordOf_ediv, toUTryte]
  congr 1
  split
  case isTrue hneg =>
    have hquot : valB t / 729 = -1 := by omega
    rw [hquot]
    decide
  case isFalse hpos =>
    have hquot : valB t / 729 = 0 := by omega
    rw [hquot]
    decide

/-- The halves of a valid word are the remainder and the quotient of its value by 729 (R113). -/
theorem valU_halves {w : UWord} (h : validWord w = true) :
    valU (loTryte w) = valU12 w % 729 ∧ valU (hiTryte w) = valU12 w / 729 := by
  have hlow := valU_lt ((validWord_iff w).mp h).left
  rw [valU12_eq_halves]
  omega

/-- Settles O6: both extensions are joined words, and sums are taken modulo the range of the word. -/
theorem wordConversions : Obligations.WordConversions := by
  unfold Obligations.WordConversions
  refine ⟨fun u => ?_, fun w hw => valU_halves hw, fun t ht => ?_, fun w t => ?_, fun w hw => ?_⟩
  · rw [toUWordZ_eq_wordOf]
    exact ⟨loTryte_wordOf _ _, hiTryte_wordOf _ _⟩
  · rw [toUWordS_eq_wordOf ht]
    exact ⟨loTryte_wordOf _ _, hiTryte_wordOf _ _⟩
  · rw [addW, toUWordS, coe_valU12_encU12, coe_valU12_encU12, Int.add_emod_emod]
  · obtain ⟨hlow, -⟩ := valU_halves hw
    rw [uwordToTryte, valB_toTryte, hlow]

/-! ## Increment and decrement -/

/-- The increment ripple computes the digits of the value plus one (R117). -/
theorem rippleInc_eq_digitsEnc {k p : Nat} (h : fieldsValid k p = true) (hp : p < 4 ^ k) :
    rippleInc k p = digitsEnc k (digitsValU k p + 1) := by
  induction k generalizing p with
  | zero => rfl
  | succ k ih =>
    simp only [fieldsValid, Bool.and_eq_true, bne_iff_ne] at h
    obtain ⟨hcode, hrest⟩ := h
    have hp' : p / 4 < 4 ^ k := by rw [pow_succ] at hp; omega
    simp only [rippleInc, digitsValU, digitsEnc]
    split
    case isTrue hlow =>
      have hdiv : (p % 4 + 3 * digitsValU k (p / 4) + 1) / 3 = digitsValU k (p / 4) := by omega
      rw [hdiv, digitsEnc_digitsValU k _ hrest hp']
      omega
    case isFalse hcarry =>
      have hdiv : (p % 4 + 3 * digitsValU k (p / 4) + 1) / 3 = digitsValU k (p / 4) + 1 := by omega
      rw [hdiv, ih hrest hp']
      omega

/-- The decrement ripple computes the digits of the value less one, modulo the range (R118). -/
theorem rippleDec_eq_digitsEnc {k p : Nat} (h : fieldsValid k p = true) (hp : p < 4 ^ k) :
    rippleDec k p = digitsEnc k (digitsValU k p + (3 ^ k - 1)) := by
  induction k generalizing p with
  | zero => rfl
  | succ k ih =>
    simp only [fieldsValid, Bool.and_eq_true, bne_iff_ne] at h
    obtain ⟨hcode, hrest⟩ := h
    have hp' : p / 4 < 4 ^ k := by rw [pow_succ] at hp; omega
    have hpos : 0 < 3 ^ k := by positivity
    simp only [rippleDec, digitsValU, digitsEnc, pow_succ']
    split
    case isTrue hlower =>
      have hdiv : (p % 4 + 3 * digitsValU k (p / 4) + (3 * 3 ^ k - 1)) / 3 = digitsValU k (p / 4) + 3 ^ k := by omega
      rw [hdiv, ← digitsEnc_mod, Nat.add_mod_right, digitsEnc_mod, digitsEnc_digitsValU k _ hrest hp']
      omega
    case isFalse hborrow =>
      have hdiv : (p % 4 + 3 * digitsValU k (p / 4) + (3 * 3 ^ k - 1)) / 3 = digitsValU k (p / 4) + (3 ^ k - 1) := by omega
      rw [hdiv, ih hrest hp']
      omega

theorem incU_eq_ripple {u : UTryte} (h : validTryte u = true) : incU u = BitVec.ofNat 12 (rippleInc 6 u.toNat) := by
  rw [rippleInc_eq_digitsEnc h u.isLt, ← valU, ← toNat_encU, BitVec.ofNat_toNat, BitVec.setWidth_eq, incU]
  rfl

theorem decU_eq_ripple {u : UTryte} (h : validTryte u = true) : decU u = BitVec.ofNat 12 (rippleDec 6 u.toNat) := by
  rw [rippleDec_eq_digitsEnc h u.isLt, ← valU, ← toNat_encU, BitVec.ofNat_toNat, BitVec.setWidth_eq]
  exact encU_congr (by push_cast; omega)

theorem incW_eq_ripple {w : UWord} (h : validWord w = true) : incW w = BitVec.ofNat 24 (rippleInc 12 w.toNat) := by
  rw [rippleInc_eq_digitsEnc h w.isLt, ← valU12, ← toNat_encU12, BitVec.ofNat_toNat, BitVec.setWidth_eq, incW]
  rfl

theorem decW_eq_ripple {w : UWord} (h : validWord w = true) : decW w = BitVec.ofNat 24 (rippleDec 12 w.toNat) := by
  rw [rippleDec_eq_digitsEnc h w.isLt, ← valU12, ← toNat_encU12, BitVec.ofNat_toNat, BitVec.setWidth_eq]
  exact encU12_congr (by push_cast; omega)

/-- On patterns, the balanced increment is the unbalanced one (R117). -/
theorem incB_eq_incU (t : Tryte) : incB t = incU t := by
  rw [incB, encB_eq_encU, incU, valB_eq]
  congr 1
  ring

theorem decB_eq_decU (t : Tryte) : decB t = decU t := by
  rw [decB, encB_eq_encU, decU, valB_eq]
  congr 1
  ring

theorem decU_incU {u : UTryte} (h : validTryte u = true) : decU (incU u) = u := by
  have hlt := valU_lt h
  exact encU_eq_of_emod h (by rw [incU, coe_valU_encU]; omega)

theorem incU_decU {u : UTryte} (h : validTryte u = true) : incU (decU u) = u := by
  have hlt := valU_lt h
  exact encU_eq_of_emod h (by rw [decU, coe_valU_encU]; omega)

theorem decW_incW {w : UWord} (h : validWord w = true) : decW (incW w) = w := by
  have hlt := valU12_lt h
  exact encU12_eq_of_emod h (by rw [incW, coe_valU12_encU12]; omega)

theorem incW_decW {w : UWord} (h : validWord w = true) : incW (decW w) = w := by
  have hlt := valU12_lt h
  exact encU12_eq_of_emod h (by rw [decW, coe_valU12_encU12]; omega)

/-- Settles O7: the ripples compute the digits of the value plus or less one, and the Tryte's forms are the UTryte's. -/
theorem incrementAndDecrementRipple : Obligations.IncrementAndDecrementRipple := by
  unfold Obligations.IncrementAndDecrementRipple
  refine ⟨fun t => ⟨valB_encB _, valB_encB _⟩, fun u => ⟨coe_valU_encU _, coe_valU_encU _⟩,
    fun w => ⟨coe_valU12_encU12 _, coe_valU12_encU12 _⟩, fun t ht => ?_, fun w hw => ?_,
    by decide, by decide, by decide, by decide, by decide, by decide⟩
  · simp only [incB_eq_incU, decB_eq_decU]
    exact ⟨incU_eq_ripple ht, incU_eq_ripple ht, decU_eq_ripple ht, decU_eq_ripple ht,
      decU_incU ht, incU_decU ht, decU_incU ht, incU_decU ht⟩
  · exact ⟨incW_eq_ripple hw, decW_eq_ripple hw, decW_incW hw, incW_decW hw⟩

/-! ## Addition and subtraction -/

theorem subB_addB {a : Tryte} (ha : validTryte a = true) (b : Tryte) : subB (addB a b) b = a :=
  encB_eq_of_emod ha (by rw [addB, valB_encB, wrapB_eq]; omega)

theorem subU_addU {a : UTryte} (ha : validTryte a = true) (b : UTryte) : subU (addU a b) b = a := by
  have hlt := valU_lt ha
  exact encU_eq_of_emod ha (by rw [addU, coe_valU_encU]; omega)

/-- Settles O8: the operations encode the exact sum or difference. -/
theorem additionAndSubtractionWrap : Obligations.AdditionAndSubtractionWrap := by
  unfold Obligations.AdditionAndSubtractionWrap
  exact ⟨fun a b => ⟨valB_encB _, valB_encB _⟩, fun a b => ⟨coe_valU_encU _, coe_valU_encU _⟩,
    fun a b => ⟨coe_valU12_encU12 _, coe_valU12_encU12 _⟩,
    fun a b ha _ => ⟨subB_addB ha b, subU_addU ha b, validTryte_encB _, validTryte_encU _⟩⟩

/-! ## Comparison and sign -/

/-- Valid trytes of one value are one pattern (R102). -/
theorem valU_inj {a b : UTryte} (ha : validTryte a = true) (hb : validTryte b = true) : valU a = valU b ↔ a = b := by
  refine ⟨fun h => ?_, congrArg valU⟩
  rw [← encU_valU ha, h, encU_valU hb]

theorem valB_inj {a b : Tryte} (ha : validTryte a = true) (hb : validTryte b = true) : valB a = valB b ↔ a = b := by
  rw [valB_eq, valB_eq, Int.sub_left_inj, Int.natCast_inj, valU_inj ha hb]

/-- Valid words of one value are one pattern (R103). -/
theorem valU12_inj {a b : UWord} (ha : validWord a = true) (hb : validWord b = true) : valU12 a = valU12 b ↔ a = b := by
  refine ⟨fun h => ?_, congrArg valU12⟩
  rw [← encU12_valU12 ha, h, encU12_valU12 hb]

/-- The sign digit of an integer (R9). -/
theorem sgn_eq_iff (n : Int) : (sgn n = .pos ↔ 0 < n) ∧ (sgn n = .zero ↔ n = 0) ∧ (sgn n = .neg ↔ n < 0) := by
  rw [sgn]
  obtain hneg | rfl | hpos := lt_trichotomy n 0
  · simp [hneg, hneg.ne, hneg.le]
  · simp
  · simp [hpos, hpos.ne', hpos.not_gt]

/-- Settles O9: comparisons are those of the values, and values of valid patterns are injective. -/
theorem comparisonAndSign : Obligations.ComparisonAndSign := by
  unfold Obligations.ComparisonAndSign
  refine ⟨fun a b => ⟨compare_lt_iff_lt, compare_gt_iff_gt⟩, fun a b => ⟨compare_lt_iff_lt, compare_gt_iff_gt⟩,
    fun a b => ⟨compare_lt_iff_lt, compare_gt_iff_gt⟩, fun a b ha hb => ⟨?_, ?_⟩, fun a b ha hb => ?_,
    fun t => sgn_eq_iff _, fun u => ?_⟩
  · rw [compareB, compare_eq_iff_eq, valB_inj ha hb]
  · rw [compareU, compare_eq_iff_eq, valU_inj ha hb]
  · rw [compareW, compare_eq_iff_eq, valU12_inj ha hb]
  · by_cases hzero : valU u = 0 <;> simp [signU, hzero]

end Sys2Proof.Machine
end

section
/-!
PROOF. The fields of a packed pattern (40_alu_numeric.md R100): what a field of a pattern put together from a low and a high
part is, what is left of a pattern without its low fields, and that a pattern is determined by its fields.
-/

namespace Sys2Proof.Machine

/-! ## Fields of composed patterns -/

/-- The fields of a low part of `k` fields with a high part above it. -/
theorem codeAt_add_mul {k q : Nat} (hq : q < 4 ^ k) (p i : Nat) :
    codeAt (q + 4 ^ k * p) i = if i < k then codeAt q i else codeAt p (i - k) := by
  induction k generalizing q i with
  | zero =>
    obtain rfl : q = 0 := by simpa using hq
    simp
  | succ k ih =>
    rw [pow_succ] at hq
    have hpow : 4 ^ (k + 1) * p = 4 * (4 ^ k * p) := by ring
    rw [hpow]
    cases i with
    | zero => rw [codeAt_zero, codeAt_zero, if_pos k.succ_pos, Nat.add_mul_mod_self_left]
    | succ i =>
      have hrest : (q + 4 * (4 ^ k * p)) / 4 = q / 4 + 4 ^ k * p := by omega
      rw [codeAt_succ, codeAt_succ, hrest, ih (by omega), Nat.add_sub_add_right]
      exact if_congr (by omega) rfl rfl

/-- Cutting a pattern off above its low `k` fields leaves these fields. -/
theorem codeAt_mod {k i : Nat} (p : Nat) (hi : i < k) : codeAt (p % 4 ^ k) i = codeAt p i := by
  have h := codeAt_add_mul (Nat.mod_lt p (pow_pos (by decide) k)) (p / 4 ^ k) i
  rw [Nat.mod_add_div, if_pos hi] at h
  exact h.symm

/-- Dropping the low `k` fields moves each other field down by `k`. -/
theorem codeAt_div (p k i : Nat) : codeAt (p / 4 ^ k) i = codeAt p (i + k) := by
  rw [codeAt, codeAt, Nat.div_div_eq_div_mul, ← pow_add, Nat.add_comm]

/-- Two numbers of `k` fields with the same fields are one number. -/
theorem eq_of_codeAt_eq {k p q : Nat} (hp : p < 4 ^ k) (hq : q < 4 ^ k) (h : ∀ i, i < k → codeAt p i = codeAt q i) :
    p = q := by
  induction k generalizing p q with
  | zero => omega
  | succ k ih =>
    rw [pow_succ] at hp hq
    have hlow : p % 4 = q % 4 := by simpa only [codeAt_zero] using h 0 k.succ_pos
    have hrest : p / 4 = q / 4 := ih (by omega) (by omega) fun i hi => by
      simpa only [codeAt_succ] using h (i + 1) (by omega)
    omega

/-- A bit pattern of `k` fields is below `4 ^ k`. -/
theorem toNat_lt_four_pow {k : Nat} (a : BitVec (2 * k)) : a.toNat < 4 ^ k := by
  have h := a.isLt
  rwa [pow_mul] at h

/-- Two bit patterns with the same fields are one pattern. -/
theorem eq_of_fields_eq {k : Nat} {a b : BitVec (2 * k)}
    (h : ∀ i, i < k → codeAt a.toNat i = codeAt b.toNat i) : a = b :=
  BitVec.eq_of_toNat_eq (eq_of_codeAt_eq (toNat_lt_four_pow a) (toNat_lt_four_pow b) h)

/-- A field of a valid pattern is a code of R100. -/
theorem codeAt_lt_three {k p i : Nat} (h : fieldsValid k p = true) (hi : i < k) : codeAt p i < 3 := by
  induction k generalizing p i with
  | zero => omega
  | succ k ih =>
    simp only [fieldsValid, Bool.and_eq_true, bne_iff_ne] at h
    obtain ⟨hcode, hrest⟩ := h
    cases i with
    | zero => rw [codeAt_zero]; omega
    | succ i => rw [codeAt_succ]; exact ih hrest (by omega)

/-- The low fields of a valid pattern are valid. -/
theorem fieldsValid_low {j n p : Nat} (hj : j ≤ n) (h : fieldsValid n p = true) : fieldsValid j p = true := by
  obtain ⟨k, rfl⟩ := Nat.exists_eq_add_of_le hj
  rw [fieldsValid_add, Bool.and_eq_true] at h
  exact h.left

end Sys2Proof.Machine
end

section
/-!
PROOF. The shifts (41_alu_shift_logic.md R140 to R146).

A shift of a pattern of `n` fields by `k < n` puts `k` fill fields next to the `n - k` fields that stay: at the low end for a
left shift, at the high end for a right shift (`toNat_shlB` to `toNat_shrW`). The value of a pattern splits at the same place
(`digitsValU_add`, `digitsValB_add`), and a fill has the value 0; so a left shift weighs the low `n - k` fields by `3 ^ k`, and
a right shift leaves the value of the high `n - k` fields and loses that of the low `k` fields.
-/

namespace Sys2Proof.Machine

/-! ## The balanced fill -/

/-- `k` fields that hold the balanced digit 0 (R140). -/
def zeroTrits : Nat → Nat
  | 0 => 0
  | k + 1 => 1 + 4 * zeroTrits k

theorem three_mul_zeroTrits (k : Nat) : 3 * zeroTrits k + 1 = 4 ^ k := by
  induction k with
  | zero => rfl
  | succ k ih => rw [zeroTrits, pow_succ]; omega

theorem zeroTrits_lt (k : Nat) : zeroTrits k < 4 ^ k := by
  have h := three_mul_zeroTrits k
  omega

theorem codeAt_zeroTrits {k i : Nat} (hi : i < k) : codeAt (zeroTrits k) i = 1 := by
  induction k generalizing i with
  | zero => omega
  | succ k ih =>
    cases i with
    | zero => rw [codeAt_zero, zeroTrits]; omega
    | succ i =>
      have hrest : zeroTrits (k + 1) / 4 = zeroTrits k := by rw [zeroTrits]; omega
      rw [codeAt_succ, hrest, ih (by omega)]

/-- The fill of the model is that pattern (R140). -/
theorem toNat_fillB {k : Nat} (hk : k ≤ 6) : (fillB k).toNat = zeroTrits k := by
  have hfill := three_mul_zeroTrits k
  have hlt : 4 ^ k ≤ 4 ^ 6 := Nat.pow_le_pow_right (by decide) hk
  rw [fillB, BitVec.toNat_ofNat, Nat.mod_eq_of_lt] <;> omega

/-! ## Patterns of shifts -/

theorem two_pow_two_mul (k : Nat) : 2 ^ (2 * k) = 4 ^ k := pow_mul 2 2 k

/-- Joining bits that do not overlap is addition. -/
theorem or_four_pow_mul {k q : Nat} (hq : q < 4 ^ k) (p : Nat) : q ||| 4 ^ k * p = q + 4 ^ k * p := by
  rw [← two_pow_two_mul] at hq ⊢
  rw [Nat.or_comm, ← Nat.two_pow_add_eq_or_of_lt hq, Nat.add_comm]

/-- A left shift by `k` fields keeps the low `n - k` fields, `k` places up. -/
theorem toNat_shiftLeft_fields {n k : Nat} (x : BitVec (2 * n)) (hk : k ≤ n) :
    (x <<< (2 * k)).toNat = 4 ^ k * (x.toNat % 4 ^ (n - k)) := by
  have hpow : 2 ^ (2 * n) = 4 ^ k * 4 ^ (n - k) := by
    rw [two_pow_two_mul, ← pow_add, Nat.add_sub_cancel' hk]
  rw [BitVec.toNat_shiftLeft, Nat.shiftLeft_eq, two_pow_two_mul k, hpow, Nat.mul_comm, Nat.mul_mod_mul_left]

/-- A right shift by `k` fields drops the low `k` fields. -/
theorem toNat_ushiftRight_fields {n : Nat} (x : BitVec n) (k : Nat) : (x >>> (2 * k)).toNat = x.toNat / 4 ^ k := by
  rw [BitVec.toNat_ushiftRight, Nat.shiftRight_eq_div_pow, two_pow_two_mul]

theorem toNat_shlU {k : Nat} (u : UTryte) (hk : k < 6) : (shlU u k).toNat = 4 ^ k * (u.toNat % 4 ^ (6 - k)) := by
  rw [shlU, if_pos hk]
  exact toNat_shiftLeft_fields (n := 6) u hk.le

theorem toNat_shlW {k : Nat} (w : UWord) (hk : k < 12) : (shlW w k).toNat = 4 ^ k * (w.toNat % 4 ^ (12 - k)) := by
  rw [shlW, if_pos hk]
  exact toNat_shiftLeft_fields (n := 12) w hk.le

theorem toNat_shlB {k : Nat} (t : Tryte) (hk : k < 6) :
    (shlB t k).toNat = zeroTrits k + 4 ^ k * (t.toNat % 4 ^ (6 - k)) := by
  have hshift : (t <<< (2 * k)).toNat = 4 ^ k * (t.toNat % 4 ^ (6 - k)) := toNat_shiftLeft_fields (n := 6) t hk.le
  rw [shlB, if_pos hk, BitVec.toNat_or, hshift, toNat_fillB hk.le, Nat.or_comm, or_four_pow_mul (zeroTrits_lt k)]

theorem toNat_shrU {k : Nat} (u : UTryte) (hk : k < 6) : (shrU u k).toNat = u.toNat / 4 ^ k := by
  rw [shrU, if_pos hk, toNat_ushiftRight_fields]

theorem toNat_shrW {k : Nat} (w : UWord) (hk : k < 12) : (shrW w k).toNat = w.toNat / 4 ^ k := by
  rw [shrW, if_pos hk, toNat_ushiftRight_fields]

/-- What is left of a pattern of `n` fields without its low `k` fields has `n - k` fields. -/
theorem div_four_pow_lt {n k p : Nat} (hk : k ≤ n) (hp : p < 4 ^ n) : p / 4 ^ k < 4 ^ (n - k) :=
  Nat.div_lt_of_lt_mul (by rwa [← pow_add, Nat.add_sub_cancel' hk])

theorem toNat_shrB {k : Nat} (t : Tryte) (hk : k < 6) :
    (shrB t k).toNat = t.toNat / 4 ^ k + 4 ^ (6 - k) * zeroTrits k := by
  have hcount : 12 - 2 * k = 2 * (6 - k) := by omega
  have hfill : (fillB k <<< (2 * (6 - k))).toNat = 4 ^ (6 - k) * ((fillB k).toNat % 4 ^ (6 - (6 - k))) :=
    toNat_shiftLeft_fields (n := 6) (fillB k) (Nat.sub_le 6 k)
  rw [Nat.sub_sub_self hk.le, toNat_fillB hk.le, Nat.mod_eq_of_lt (zeroTrits_lt k)] at hfill
  rw [shrB, if_pos hk, hcount, BitVec.toNat_or, hfill, toNat_ushiftRight_fields,
    or_four_pow_mul (div_four_pow_lt hk.le t.isLt)]

/-! ## Fields of shifts -/

/-- The fields of a left shift of `n` fields with the fill `q` (R140 to R142). -/
theorem codeAt_shiftLeft {n k q i : Nat} (hq : q < 4 ^ k) (p : Nat) (hi : i < n) :
    codeAt (q + 4 ^ k * (p % 4 ^ (n - k))) i = if i < k then codeAt q i else codeAt p (i - k) := by
  rw [codeAt_add_mul hq]
  split
  case isTrue => rfl
  case isFalse hge => rw [codeAt_mod p (by omega)]

theorem codeAt_shlB {k i : Nat} (t : Tryte) (hk : k < 6) (hi : i < 6) :
    codeAt (shlB t k).toNat i = if i < k then 1 else codeAt t.toNat (i - k) := by
  rw [toNat_shlB t hk, codeAt_shiftLeft (zeroTrits_lt k) _ hi]
  exact ite_congr rfl codeAt_zeroTrits fun _ => rfl

theorem codeAt_zero_left (i : Nat) : codeAt 0 i = 0 := by rw [codeAt, Nat.zero_div]

/-- The fields of a left shift with the fill 0 (R141, R142). -/
theorem codeAt_shiftLeft_zero {n k i : Nat} (p : Nat) (hi : i < n) :
    codeAt (4 ^ k * (p % 4 ^ (n - k))) i = if i < k then 0 else codeAt p (i - k) := by
  have h := codeAt_shiftLeft (k := k) (pow_pos (by decide) k) p hi
  rwa [Nat.zero_add, codeAt_zero_left] at h

theorem codeAt_shlU {k i : Nat} (u : UTryte) (hk : k < 6) (hi : i < 6) :
    codeAt (shlU u k).toNat i = if i < k then 0 else codeAt u.toNat (i - k) := by
  rw [toNat_shlU u hk, codeAt_shiftLeft_zero _ hi]

theorem codeAt_shlW {k i : Nat} (w : UWord) (hk : k < 12) (hi : i < 12) :
    codeAt (shlW w k).toNat i = if i < k then 0 else codeAt w.toNat (i - k) := by
  rw [toNat_shlW w hk, codeAt_shiftLeft_zero _ hi]

theorem codeAt_shrB {k i : Nat} (t : Tryte) (hk : k < 6) (hi : i < 6) :
    codeAt (shrB t k).toNat i = if i < 6 - k then codeAt t.toNat (i + k) else 1 := by
  rw [toNat_shrB t hk, codeAt_add_mul (div_four_pow_lt hk.le t.isLt), codeAt_div]
  exact ite_congr rfl (fun _ => rfl) fun hge => codeAt_zeroTrits (by omega)

/-! ## Values of split patterns -/

/-- The balanced value of `j + k` fields is that of the low `j` fields and, weighted, that of the others (R107). -/
theorem digitsValB_add (j k p : Nat) :
    digitsValB (j + k) p = digitsValB j p + 3 ^ j * digitsValB k (p / 4 ^ j) := by
  induction j generalizing p with
  | zero => simp [digitsValB]
  | succ j ih =>
    rw [Nat.add_right_comm]
    simp only [digitsValB, ih, pow_succ', Nat.div_div_eq_div_mul]
    ring

/-- Bits above the low `k` fields do not count. -/
theorem digitsValB_mod (k p : Nat) : digitsValB k (p % 4 ^ k) = digitsValB k p := by
  rw [digitsValB_eq, digitsValB_eq, digitsValU_mod]

/-- The balanced value of a low part of `j` fields with a high part above it. -/
theorem digitsValB_add_mul {j q : Nat} (k p : Nat) (hq : q < 4 ^ j) :
    digitsValB (j + k) (q + 4 ^ j * p) = digitsValB j q + 3 ^ j * digitsValB k p := by
  have hpos : 0 < 4 ^ j := by positivity
  rw [digitsValB_add, ← digitsValB_mod j, Nat.add_mul_mod_self_left, digitsValB_mod, Nat.add_mul_div_left _ _ hpos,
    Nat.div_eq_of_lt hq, Nat.zero_add]

/-- The balanced fill has the value 0 (R140). -/
theorem digitsValB_zeroTrits (k : Nat) : digitsValB k (zeroTrits k) = 0 := by
  induction k with
  | zero => rfl
  | succ k ih =>
    have hlow : (1 + 4 * zeroTrits k) % 4 = 1 := by omega
    have hrest : (1 + 4 * zeroTrits k) / 4 = zeroTrits k := by omega
    simp [digitsValB, zeroTrits, hlow, hrest, ih]

/-- The balanced value of `k` valid fields is less than half of `3 ^ k` away from 0 (R101). -/
theorem two_mul_abs_digitsValB_lt {k p : Nat} (h : fieldsValid k p = true) : 2 * |digitsValB k p| < 3 ^ k := by
  suffices hbounds : -3 ^ k < 2 * digitsValB k p ∧ 2 * digitsValB k p < 3 ^ k by
    rwa [← abs_lt, abs_mul, abs_two] at hbounds
  induction k generalizing p with
  | zero => simp [digitsValB]
  | succ k ih =>
    simp only [fieldsValid, Bool.and_eq_true, bne_iff_ne] at h
    obtain ⟨hcode, hrest⟩ := h
    obtain ⟨hlow, hhigh⟩ := ih hrest
    simp only [digitsValB, pow_succ]
    omega

theorem digitsValU_zero (k : Nat) : digitsValU k 0 = 0 := by
  induction k with
  | zero => rfl
  | succ k ih => rw [digitsValU, Nat.zero_mod, Nat.zero_div, ih]

/-! ## Values of left shifts -/

/-- A balanced left shift weighs the fields that stay by `3 ^ k` (R140). -/
theorem valB_shlB {k : Nat} (t : Tryte) (hk : k < 6) : valB (shlB t k) = 3 ^ k * digitsValB (6 - k) t.toNat := by
  have h := digitsValB_add_mul (6 - k) (t.toNat % 4 ^ (6 - k)) (zeroTrits_lt k)
  rwa [Nat.add_sub_cancel' hk.le, ← toNat_shlB t hk, digitsValB_zeroTrits, zero_add, digitsValB_mod] at h

/-- The value of an unbalanced left shift of `n` valid fields: the fields lost weigh a multiple of `3 ^ n` (R141, R142). -/
theorem digitsValU_shiftLeft {n k p : Nat} (hk : k ≤ n) (h : fieldsValid n p = true) :
    digitsValU n (4 ^ k * (p % 4 ^ (n - k))) = digitsValU n p * 3 ^ k % 3 ^ n := by
  have hlt : digitsValU (n - k) p < 3 ^ (n - k) := digitsValU_lt _ _ (fieldsValid_low (Nat.sub_le n k) h)
  have hpos : 0 < 4 ^ k := by positivity
  calc digitsValU n (4 ^ k * (p % 4 ^ (n - k)))
    _ = digitsValU (k + (n - k)) (4 ^ k * (p % 4 ^ (n - k))) := by rw [Nat.add_sub_cancel' hk]
    _ = 3 ^ k * digitsValU (n - k) p := by
      rw [digitsValU_add, ← digitsValU_mod k, Nat.mul_mod_right, digitsValU_zero, Nat.mul_div_cancel_left _ hpos,
        digitsValU_mod, zero_add]
    _ = 3 ^ k * ((digitsValU (n - k) p + 3 ^ (n - k) * digitsValU k (p / 4 ^ (n - k))) % 3 ^ (n - k)) := by
      rw [Nat.add_mul_mod_self_left, Nat.mod_eq_of_lt hlt]
    _ = digitsValU n p * 3 ^ k % 3 ^ n := by
      rw [← digitsValU_add, Nat.sub_add_cancel hk, ← Nat.mul_mod_mul_left, ← pow_add, Nat.add_sub_cancel' hk,
        Nat.mul_comm (3 ^ k)]

/-- An integer in range is the wrap of every integer congruent to it (R105). -/
theorem eq_wrapB {v n : Int} (hv : 2 * |v| < 729) (h : (729 : Int) ∣ n - v) : v = wrapB n := by
  obtain ⟨hlow, hhigh⟩ := abs_lt.mp (show |2 * v| < 729 by rwa [abs_mul])
  rw [wrapB_eq]
  omega

theorem valB_shlB_eq_wrapB {k : Nat} {t : Tryte} (hk : k < 6) (h : validTryte t = true) :
    valB (shlB t k) = wrapB (valB t * 3 ^ k) := by
  have hsplit := digitsValB_add (6 - k) k t.toNat
  have hpow : (3 : Int) ^ k * 3 ^ (6 - k) = 729 := by rw [← pow_add, Nat.add_sub_cancel' hk.le]; rfl
  rw [Nat.sub_add_cancel hk.le, ← valB] at hsplit
  rw [valB_shlB t hk]
  refine eq_wrapB ?_ ⟨digitsValB k (t.toNat / 4 ^ (6 - k)), ?_⟩
  · have hlow := two_mul_abs_digitsValB_lt (fieldsValid_low (Nat.sub_le 6 k) h)
    have hpos : (0 : Int) < 3 ^ k := by positivity
    rw [abs_mul, abs_of_pos hpos, mul_left_comm, ← hpow]
    exact mul_lt_mul_of_pos_left hlow hpos
  · rw [hsplit, ← hpow]
    ring

/-- Settles O10: a left shift is the fill with the low fields above it, field by field and by value. -/
theorem shiftLeftMultiplies : Obligations.ShiftLeftMultiplies := by
  unfold Obligations.ShiftLeftMultiplies
  refine ⟨fun t k hk ht => valB_shlB_eq_wrapB hk ht, fun t k i hk hi => codeAt_shlB t hk hi, fun u k hk hu => ?_,
    fun u k i hk hi => codeAt_shlU u hk hi, fun w k hk hw => ?_, fun w k i hk hi => codeAt_shlW w hk hi⟩
  · rw [valU, toNat_shlU u hk, digitsValU_shiftLeft hk.le hu]
    rfl
  · rw [valU12, toNat_shlW w hk, digitsValU_shiftLeft hk.le hw]
    rfl

/-! ## Values of right shifts -/

/-- A balanced right shift has the value of the fields that stay (R143). -/
theorem valB_shrB {k : Nat} (t : Tryte) (hk : k < 6) : valB (shrB t k) = digitsValB (6 - k) (t.toNat / 4 ^ k) := by
  have h := digitsValB_add_mul k (zeroTrits k) (div_four_pow_lt hk.le t.isLt)
  rwa [Nat.sub_add_cancel hk.le, ← toNat_shrB t hk, digitsValB_zeroTrits, mul_zero, add_zero] at h

/-- A balanced right shift loses the value of the low `k` fields (R143). -/
theorem valB_sub_valB_shrB {k : Nat} (t : Tryte) (hk : k < 6) :
    valB t - 3 ^ k * valB (shrB t k) = digitsValB k t.toNat := by
  have hsplit := digitsValB_add k (6 - k) t.toNat
  rw [Nat.add_sub_cancel' hk.le, ← valB] at hsplit
  rw [valB_shrB t hk, hsplit, add_sub_cancel_right]

/-- The value of an unbalanced right shift: the low fields weigh less than `3 ^ k` (R144, R145). -/
theorem digitsValU_shiftRight {n k p : Nat} (hk : k ≤ n) (hp : p < 4 ^ n) (h : fieldsValid n p = true) :
    digitsValU n (p / 4 ^ k) = digitsValU n p / 3 ^ k := by
  have hlow : digitsValU k p < 3 ^ k := digitsValU_lt _ _ (fieldsValid_low hk h)
  have hpos : 0 < 3 ^ k := by positivity
  calc digitsValU n (p / 4 ^ k)
    _ = digitsValU (n - k) (p / 4 ^ k) + 3 ^ (n - k) * digitsValU k (p / 4 ^ k / 4 ^ (n - k)) := by
      rw [← digitsValU_add, Nat.sub_add_cancel hk]
    _ = digitsValU (n - k) (p / 4 ^ k) := by
      rw [Nat.div_eq_of_lt (div_four_pow_lt hk hp), digitsValU_zero, mul_zero, add_zero]
    _ = (digitsValU k p + 3 ^ k * digitsValU (n - k) (p / 4 ^ k)) / 3 ^ k := by
      rw [Nat.add_mul_div_left _ _ hpos, Nat.div_eq_of_lt hlow, zero_add]
    _ = digitsValU n p / 3 ^ k := by rw [← digitsValU_add, Nat.add_sub_cancel' hk]

/-- Settles O11: what a right shift loses is the value of the low `k` fields. -/
theorem shiftRightDivides : Obligations.ShiftRightDivides := by
  unfold Obligations.ShiftRightDivides
  refine ⟨fun t k hk ht => ?_, fun t k i hk hi => codeAt_shrB t hk hi, fun u k hk hu => ?_, fun w k hk hw => ?_⟩
  · rw [valB_sub_valB_shrB t hk]
    exact two_mul_abs_digitsValB_lt (fieldsValid_low hk.le ht)
  · rw [valU, toNat_shrU u hk]
    exact digitsValU_shiftRight hk.le u.isLt hu
  · rw [valU12, toNat_shrW w hk]
    exact digitsValU_shiftRight hk.le w.isLt hw

/-! ## The limits of the count -/

theorem fillB_zero : fillB 0 = 0#12 := rfl

theorem shift_zero_tryte (t : Tryte) : shlB t 0 = t ∧ shrB t 0 = t ∧ shlU t 0 = t ∧ shrU t 0 = t := by
  simp [shlB, shrB, shlU, shrU, fillB_zero]

theorem shift_zero_word (w : UWord) : shlW w 0 = w ∧ shrW w 0 = w := by simp [shlW, shrW]

theorem checkedShift_of_neg {α : Type} (f : α → Nat → α) (v : α) {k : Int} (hk : k < 0) :
    checkedShift f v k = .error .negativeShiftCount := if_pos hk

theorem checkedShift_natCast {α : Type} (f : α → Nat → α) (v : α) (k : Nat) : checkedShift f v k = .ok (f v k) :=
  if_neg (Int.natCast_nonneg k).not_gt

/-- Settles O12: each shift tests its count against the width, and only a negative count is refused. -/
theorem shiftCountLimits : Obligations.ShiftCountLimits := by
  unfold Obligations.ShiftCountLimits
  exact ⟨shift_zero_tryte, shift_zero_word,
    fun t k hk => ⟨if_neg hk.not_gt, if_neg hk.not_gt, if_neg hk.not_gt, if_neg hk.not_gt⟩,
    fun w k hk => ⟨if_neg hk.not_gt, if_neg hk.not_gt⟩,
    fun t k hk f _ => checkedShift_of_neg f t hk, fun w k hk f _ => checkedShift_of_neg f w hk,
    fun t k f _ => checkedShift_natCast f t k, fun w k f _ => checkedShift_natCast f w k⟩

end Sys2Proof.Machine
end

section
/-!
PROOF. The tritwise logic (41_alu_shift_logic.md R150 to R159).

A field of a result is the table at the fields of the operands, on any pattern (`codeAt_tritwise2`, `codeAt_tritwise1`). Trytes
and words differ in their number of fields only, so the rules are stated once, for `k` fields (`binaryLogic`, `unaryLogic`),
and a law of a table at the three codes is a law of the operation on valid patterns, since a pattern is determined by its
fields.
-/

namespace Sys2Proof.Machine

/-! ## One field -/

theorem lookup2_lt (t : Table2) (a b : Nat) : lookup2 t a b < 4 := by
  unfold lookup2
  split
  next e _ => exact e.isLt.trans (by decide)
  next => exact BitVec.isLt _

theorem lookup1_lt (t : Table1) (a : Nat) : lookup1 t a < 4 := by
  unfold lookup1
  split
  next e _ => exact e.isLt.trans (by decide)
  next => exact BitVec.isLt _

/-- At the three codes a table of one operand has an entry, and the lookup answers it (R151 a). -/
theorem table1_entry_eq_lookup1 (t : Table1) {a : Nat} (ha : a < 3) : (t.entry a).map Fin.val = some (lookup1 t a) := by
  interval_cases a <;> rfl

/-- At the three codes a table of two operands has an entry, and the lookup answers it (R151 a). -/
theorem table2_entry_eq_lookup2 (t : Table2) {a b : Nat} (ha : a < 3) (hb : b < 3) :
    (t.entry a b).map Fin.val = some (lookup2 t a b) := by
  interval_cases a <;> interval_cases b <;> rfl

/-! ## Every field -/

theorem tritwise2_lt (t : Table2) (k p q : Nat) : tritwise2 t k p q < 4 ^ k := by
  induction k generalizing p q with
  | zero => exact Nat.one_pos
  | succ k ih =>
    have hlow := lookup2_lt t (p % 4) (q % 4)
    have hrest := ih (p / 4) (q / 4)
    rw [tritwise2, pow_succ]
    omega

theorem tritwise1_lt (t : Table1) (k p : Nat) : tritwise1 t k p < 4 ^ k := by
  induction k generalizing p with
  | zero => exact Nat.one_pos
  | succ k ih =>
    have hlow := lookup1_lt t (p % 4)
    have hrest := ih (p / 4)
    rw [tritwise1, pow_succ]
    omega

/-- No field of a result depends on another field of the operands (R150). -/
theorem codeAt_tritwise2 (t : Table2) {k i : Nat} (p q : Nat) (hi : i < k) :
    codeAt (tritwise2 t k p q) i = lookup2 t (codeAt p i) (codeAt q i) := by
  induction k generalizing p q i with
  | zero => omega
  | succ k ih =>
    have hlow := lookup2_lt t (p % 4) (q % 4)
    cases i with
    | zero =>
      simp only [codeAt_zero, tritwise2]
      omega
    | succ i =>
      have hrest : tritwise2 t (k + 1) p q / 4 = tritwise2 t k (p / 4) (q / 4) := by rw [tritwise2]; omega
      simp only [codeAt_succ, hrest, ih _ _ (Nat.lt_of_succ_lt_succ hi)]

theorem codeAt_tritwise1 (t : Table1) {k i : Nat} (p : Nat) (hi : i < k) :
    codeAt (tritwise1 t k p) i = lookup1 t (codeAt p i) := by
  induction k generalizing p i with
  | zero => omega
  | succ k ih =>
    have hlow := lookup1_lt t (p % 4)
    cases i with
    | zero =>
      simp only [codeAt_zero, tritwise1]
      omega
    | succ i =>
      have hrest : tritwise1 t (k + 1) p / 4 = tritwise1 t k (p / 4) := by rw [tritwise1]; omega
      simp only [codeAt_succ, hrest, ih _ (Nat.lt_of_succ_lt_succ hi)]

/-- A two-operand operation on patterns of `k` fields (R150). -/
def binaryLogic {k : Nat} (t : Table2) (a b : BitVec (2 * k)) : BitVec (2 * k) :=
  BitVec.ofNat (2 * k) (tritwise2 t k a.toNat b.toNat)

/-- A one-operand operation on patterns of `k` fields (R150). -/
def unaryLogic {k : Nat} (t : Table1) (a : BitVec (2 * k)) : BitVec (2 * k) :=
  BitVec.ofNat (2 * k) (tritwise1 t k a.toNat)

/-! The operations of the model are these two, at six fields and at twelve. -/

theorem tritwiseT_eq_binaryLogic (t : Table2) : tritwiseT t = binaryLogic (k := 6) t := rfl
theorem tritwiseW_eq_binaryLogic (t : Table2) : tritwiseW t = binaryLogic (k := 12) t := rfl
theorem notB_eq_unaryLogic (c : Config) : notB c = unaryLogic (k := 6) c.notB := rfl
theorem notU_eq_unaryLogic (c : Config) : notU c = unaryLogic (k := 6) c.notU := rfl
theorem notW_eq_unaryLogic (c : Config) : notW c = unaryLogic (k := 12) c.notU := rfl

theorem codeAt_binaryLogic {k i : Nat} (t : Table2) (a b : BitVec (2 * k)) (hi : i < k) :
    codeAt (binaryLogic t a b).toNat i = lookup2 t (codeAt a.toNat i) (codeAt b.toNat i) := by
  rw [binaryLogic, BitVec.toNat_ofNat, two_pow_two_mul, Nat.mod_eq_of_lt (tritwise2_lt t k _ _), codeAt_tritwise2 t _ _ hi]

theorem codeAt_unaryLogic {k i : Nat} (t : Table1) (a : BitVec (2 * k)) (hi : i < k) :
    codeAt (unaryLogic t a).toNat i = lookup1 t (codeAt a.toNat i) := by
  rw [unaryLogic, BitVec.toNat_ofNat, two_pow_two_mul, Nat.mod_eq_of_lt (tritwise1_lt t k _), codeAt_tritwise1 t _ hi]

/-! ## Trit by trit, for any tables -/

section
variable {k i : Nat} {a b : BitVec (2 * k)}

theorem entry_binaryLogic (t : Table2) (ha : fieldsValid k a.toNat = true) (hb : fieldsValid k b.toNat = true) (hi : i < k) :
    (t.entry (codeAt a.toNat i) (codeAt b.toNat i)).map Fin.val = some (codeAt (binaryLogic t a b).toNat i) := by
  rw [codeAt_binaryLogic t a b hi, table2_entry_eq_lookup2 t (codeAt_lt_three ha hi) (codeAt_lt_three hb hi)]

theorem entry_unaryLogic (t : Table1) (ha : fieldsValid k a.toNat = true) (hi : i < k) :
    (t.entry (codeAt a.toNat i)).map Fin.val = some (codeAt (unaryLogic t a).toNat i) := by
  rw [codeAt_unaryLogic t a hi, table1_entry_eq_lookup1 t (codeAt_lt_three ha hi)]

end

/-- The in-place AND writes its result or nothing, by the parameter (R157). -/
theorem andWInPlace_eq (c : Config) (dst src : UWord) :
    andWInPlace c dst src = if c.uwordAndInplaceNoop = true then dst else andW c dst src := rfl

/-- Settles O13: every operation is `binaryLogic` or `unaryLogic` of its table. -/
theorem logicWorksTritByTrit : Obligations.LogicWorksTritByTrit := by
  unfold Obligations.LogicWorksTritByTrit
  intro c
  refine ⟨fun a b ha hb i hi => ⟨?_, entry_unaryLogic (k := 6) _ ha hi, entry_unaryLogic (k := 6) _ ha hi⟩,
    fun a b ha hb i hi => ⟨?_, entry_unaryLogic (k := 12) _ ha hi⟩, fun a b => ⟨fun h => ?_, fun h => ?_⟩⟩
  · have hentry := fun t => entry_binaryLogic (k := 6) t ha hb hi
    simp only [List.forall_mem_cons]
    exact ⟨hentry _, hentry _, hentry _, hentry _, hentry _, hentry _, List.forall_mem_nil _⟩
  · have hentry := fun t => entry_binaryLogic (k := 12) t ha hb hi
    simp only [List.forall_mem_cons]
    exact ⟨hentry _, hentry _, hentry _, List.forall_mem_nil _⟩
  · rw [andWInPlace_eq, if_pos h]
  · rw [andWInPlace_eq, h, if_neg Bool.false_ne_true]

/-! ## Flag masks -/

theorem lookup2_eq_code_iff (t : Table2) (d e r : Trit) :
    (t.entry d.code e.code).map Fin.val = some r.code ↔ lookup2 t d.code e.code = r.code := by
  rw [table2_entry_eq_lookup2 t (trit_code_lt d) (trit_code_lt e), Option.some_inj]

/-- A saturating table answers the saturating digit wherever the mask holds it (R151 c, d). -/
theorem lookup2_of_saturatesTo {t : Table2} {v : Trit} (h : t.saturatesTo v.code = true) (d : Trit) :
    lookup2 t d.code v.code = v.code := by
  have hmem : d.code ∈ [0, 1, 2] := by cases d <;> decide
  have hcode : (Fin.ofNat 3 v.code).val = v.code := Nat.mod_eq_of_lt (trit_code_lt v)
  have hboth := List.all_eq_true.mp h d.code hmem
  simp only [Bool.and_eq_true, decide_eq_true_eq] at hboth
  obtain ⟨-, hright⟩ := hboth
  rw [← lookup2_eq_code_iff, hright, Option.map_some, hcode]

/-- Masked logic on the packed F works flag by flag (R30, R158). -/
theorem tritwiseT_pack_eq_iff (t : Table2) (f g : Flags) (m5 m4 m3 m2 m1 m0 : Trit) :
    tritwiseT t f.pack (tryteOfTrits m5 m4 m3 m2 m1 m0) = g.pack ↔
      lookup2 t f.s.code m5.code = g.s.code ∧ lookup2 t f.ou.code m4.code = g.ou.code ∧
      lookup2 t f.cb.code m3.code = g.cb.code ∧ lookup2 t f.i.trit.code m2.code = g.i.trit.code ∧
      lookup2 t f.bu.trit.code m1.code = g.bu.trit.code ∧ lookup2 t f.r0.code m0.code = g.r0.code := by
  have hfield {i : Nat} (hi : i < 6) := codeAt_binaryLogic (k := 6) t f.pack (tryteOfTrits m5 m4 m3 m2 m1 m0) hi
  obtain ⟨hs, hou, hcb, hi, hbu, hr0⟩ := unpack_eq_some_iff.mp (pack_eq_iff.mp (rfl : f.pack = f.pack))
  obtain ⟨h5, h4, h3, h2, h1, h0⟩ := (tryteOfTrits_eq_iff _ m5 m4 m3 m2 m1 m0).mp rfl
  rw [eq_comm, pack_eq_iff, unpack_eq_some_iff, tritwiseT_eq_binaryLogic, hfield (by decide), hfield (by decide),
    hfield (by decide), hfield (by decide), hfield (by decide), hfield (by decide), hs, hou, hcb, hi, hbu, hr0,
    h5, h4, h3, h2, h1, h0]

/-- A mask that holds `v` at one trit and a right identity at the others writes `v` to that flag, where the table answers `v`
(R37, R158). -/
theorem masked_write {t : Table2} {e v : Trit} {i : IntEnable} {bu : ArithMode}
    (hkeep : ∀ d : Trit, lookup2 t d.code e.code = d.code) (hwrite : ∀ d : Trit, lookup2 t d.code v.code = v.code)
    (hi : i.trit = v) (hbu : bu.trit = v) (f : Flags) :
    tritwiseT t f.pack (tryteOfTrits v e e e e e) = Flags.pack { f with s := v } ∧
    tritwiseT t f.pack (tryteOfTrits e v e e e e) = Flags.pack { f with ou := v } ∧
    tritwiseT t f.pack (tryteOfTrits e e v e e e) = Flags.pack { f with cb := v } ∧
    tritwiseT t f.pack (tryteOfTrits e e e v e e) = Flags.pack { f with i := i } ∧
    tritwiseT t f.pack (tryteOfTrits e e e e v e) = Flags.pack { f with bu := bu } := by
  simp only [tritwiseT_pack_eq_iff, hkeep, hwrite, hi, hbu, and_self]

/-- The digit - is a right identity of the default XOR (R154). -/
theorem lookup2_tableXorB_neg (d : Trit) : lookup2 tableXorB d.code Trit.neg.code = d.code := by cases d <;> rfl

/-- The default XOR with the digit + is the default toggle (R154, R335). -/
theorem lookup2_tableXorB_pos (d : Trit) :
    lookup2 tableXorB d.code Trit.pos.code = (toggleApply testConfig.flagToggle d).code := by cases d <;> rfl

/-- The constraints on OR and AND that the flag masks use (R151 c, d). -/
theorem saturatesTo_of_tablesOk {c : Config} (h : c.tablesOk = true) :
    c.orB.saturatesTo Trit.pos.code = true ∧ c.andB.saturatesTo Trit.neg.code = true := by
  simp only [Config.tablesOk, Bool.and_eq_true] at h
  obtain ⟨⟨⟨⟨⟨-, hor⟩, hand⟩, -⟩, -⟩, -⟩ := h
  exact ⟨hor, hand⟩

/-- Settles O14: a mask works flag by flag; the saturation writes one flag and the right identity keeps the others. -/
theorem flagMasksComputeDirectUpdates : Obligations.FlagMasksComputeDirectUpdates := by
  unfold Obligations.FlagMasksComputeDirectUpdates
  intro c f e hc
  obtain ⟨hor, hand⟩ := saturatesTo_of_tablesOk hc
  refine ⟨fun hkeep => ?_, fun hkeep => ?_, ?_, ?_⟩
  · simp only [lookup2_eq_code_iff] at hkeep
    exact masked_write hkeep (lookup2_of_saturatesTo hor) rfl rfl f
  · simp only [lookup2_eq_code_iff] at hkeep
    exact masked_write hkeep (lookup2_of_saturatesTo hand) rfl rfl f
  · exact (tritwiseT_pack_eq_iff _ _ _ _ _ _ _ _ _).mpr ⟨lookup2_tableXorB_neg _, lookup2_tableXorB_pos _,
      lookup2_tableXorB_neg _, lookup2_tableXorB_neg _, lookup2_tableXorB_neg _, lookup2_tableXorB_neg _⟩
  · exact (tritwiseT_pack_eq_iff _ _ _ _ _ _ _ _ _).mpr ⟨lookup2_tableXorB_neg _, lookup2_tableXorB_neg _,
      lookup2_tableXorB_pos _, lookup2_tableXorB_neg _, lookup2_tableXorB_neg _, lookup2_tableXorB_neg _⟩

/-! ## Laws of tables are laws of the operations -/

section
variable {k : Nat} {t : Table2} {n : Table1} {a b d : BitVec (2 * k)}

theorem binaryLogic_comm (h : ∀ x y : Fin 3, lookup2 t x y = lookup2 t y x)
    (ha : fieldsValid k a.toNat = true) (hb : fieldsValid k b.toNat = true) : binaryLogic t a b = binaryLogic t b a :=
  eq_of_fields_eq fun i hi => by
    rw [codeAt_binaryLogic t a b hi, codeAt_binaryLogic t b a hi]
    exact h ⟨_, codeAt_lt_three ha hi⟩ ⟨_, codeAt_lt_three hb hi⟩

theorem binaryLogic_assoc (h : ∀ x y z : Fin 3, lookup2 t (lookup2 t x y) z = lookup2 t x (lookup2 t y z))
    (ha : fieldsValid k a.toNat = true) (hb : fieldsValid k b.toNat = true) (hd : fieldsValid k d.toNat = true) :
    binaryLogic t (binaryLogic t a b) d = binaryLogic t a (binaryLogic t b d) :=
  eq_of_fields_eq fun i hi => by
    simp only [codeAt_binaryLogic _ _ _ hi]
    exact h ⟨_, codeAt_lt_three ha hi⟩ ⟨_, codeAt_lt_three hb hi⟩ ⟨_, codeAt_lt_three hd hi⟩

theorem binaryLogic_self (h : ∀ x : Fin 3, lookup2 t x x = x) (ha : fieldsValid k a.toNat = true) :
    binaryLogic t a a = a :=
  eq_of_fields_eq fun i hi => by
    rw [codeAt_binaryLogic t a a hi]
    exact h ⟨_, codeAt_lt_three ha hi⟩

theorem unaryLogic_unaryLogic (h : ∀ x : Fin 3, lookup1 n (lookup1 n x) = x) (ha : fieldsValid k a.toNat = true) :
    unaryLogic n (unaryLogic n a) = a :=
  eq_of_fields_eq fun i hi => by
    simp only [codeAt_unaryLogic _ _ hi]
    exact h ⟨_, codeAt_lt_three ha hi⟩

theorem unaryLogic_binaryLogic {u : Table2}
    (h : ∀ x y : Fin 3, lookup1 n (lookup2 t x y) = lookup2 u (lookup1 n x) (lookup1 n y))
    (ha : fieldsValid k a.toNat = true) (hb : fieldsValid k b.toNat = true) :
    unaryLogic n (binaryLogic t a b) = binaryLogic u (unaryLogic n a) (unaryLogic n b) :=
  eq_of_fields_eq fun i hi => by
    simp only [codeAt_unaryLogic _ _ hi, codeAt_binaryLogic _ _ _ hi]
    exact h ⟨_, codeAt_lt_three ha hi⟩ ⟨_, codeAt_lt_three hb hi⟩

end

/-! ## The default tables (R152 to R156) -/

theorem tableMin_comm : ∀ x y : Fin 3, lookup2 tableMin x y = lookup2 tableMin y x := by decide
theorem tableMax_comm : ∀ x y : Fin 3, lookup2 tableMax x y = lookup2 tableMax y x := by decide
theorem tableXorB_comm : ∀ x y : Fin 3, lookup2 tableXorB x y = lookup2 tableXorB y x := by decide
theorem tableXorU_comm : ∀ x y : Fin 3, lookup2 tableXorU x y = lookup2 tableXorU y x := by decide

theorem tableMin_assoc :
    ∀ x y z : Fin 3, lookup2 tableMin (lookup2 tableMin x y) z = lookup2 tableMin x (lookup2 tableMin y z) := by decide
theorem tableMax_assoc :
    ∀ x y z : Fin 3, lookup2 tableMax (lookup2 tableMax x y) z = lookup2 tableMax x (lookup2 tableMax y z) := by decide

theorem tableMin_self : ∀ x : Fin 3, lookup2 tableMin x x = x := by decide
theorem tableMax_self : ∀ x : Fin 3, lookup2 tableMax x x = x := by decide
theorem tableXorB_self : ∀ x : Fin 3, lookup2 tableXorB x x = 0 := by decide
theorem tableXorU_self : ∀ x : Fin 3, lookup2 tableXorU x x = 2 * x % 3 := by decide

theorem tableNot_eq : ∀ x : Fin 3, lookup1 tableNot x = 2 - x := by decide
theorem tableNot_tableNot : ∀ x : Fin 3, lookup1 tableNot (lookup1 tableNot x) = x := by decide

theorem tableNot_tableMin : ∀ x y : Fin 3,
    lookup1 tableNot (lookup2 tableMin x y) = lookup2 tableMax (lookup1 tableNot x) (lookup1 tableNot y) := by decide

/-- XOR of a Tryte with itself is the digit - everywhere (R159). -/
theorem xorB_self {a : Tryte} (ha : validTryte a = true) : xorB testConfig a a = 0x000#12 := by
  refine eq_of_fields_eq (k := 6) fun i hi => (codeAt_binaryLogic (k := 6) tableXorB a a hi).trans ?_
  exact (tableXorB_self ⟨_, codeAt_lt_three ha hi⟩).trans (codeAt_zero_left i).symm

/-- XOR of a UTryte with itself doubles each code modulo 3 (R159). -/
theorem codeAt_xorU_self {a : UTryte} (ha : validTryte a = true) {i : Nat} (hi : i < 6) :
    codeAt (xorU testConfig a a).toNat i = 2 * codeAt a.toNat i % 3 :=
  (codeAt_binaryLogic (k := 6) tableXorU a a hi).trans (tableXorU_self ⟨_, codeAt_lt_three ha hi⟩)

/-- NOT negates each digit, so it negates the value (R155). -/
theorem valB_notB {a : Tryte} (ha : validTryte a = true) : valB (notB testConfig a) = -valB a := by
  rw [valB_eq_sum, valB_eq_sum, ← Finset.sum_neg_distrib]
  refine Finset.sum_congr rfl fun i hi => ?_
  have hcode := codeAt_lt_three ha (Finset.mem_range.mp hi)
  have hnot : lookup1 testConfig.notB (codeAt a.toNat i) = 2 - codeAt a.toNat i := tableNot_eq ⟨_, hcode⟩
  rw [notB_eq_unaryLogic, codeAt_unaryLogic _ _ (Finset.mem_range.mp hi), hnot, Nat.cast_sub (Nat.le_of_lt_succ hcode)]
  push_cast
  ring

/-- Settles O15: each law of a default table is a law of its operation, for trytes and for words. -/
theorem defaultLogicLaws : Obligations.DefaultLogicLaws := by
  unfold Obligations.DefaultLogicLaws
  simp only [List.forall_mem_cons]
  refine ⟨fun a b d ha hb hd => ?_, fun a b d ha hb hd => ?_⟩
  · have comm {t : Table2} h := binaryLogic_comm (k := 6) (t := t) h ha hb
    have assocSelf {t : Table2} h h' :=
      And.intro (binaryLogic_assoc (k := 6) (t := t) h ha hb hd) (binaryLogic_self (k := 6) (t := t) h' ha)
    have notNot := unaryLogic_unaryLogic (k := 6) tableNot_tableNot ha
    have deMorgan := unaryLogic_binaryLogic (k := 6) tableNot_tableMin ha hb
    exact ⟨⟨comm tableMin_comm, comm tableMax_comm, comm tableXorB_comm, comm tableMin_comm, comm tableMax_comm,
        comm tableXorU_comm, List.forall_mem_nil _⟩,
      ⟨assocSelf tableMin_assoc tableMin_self, assocSelf tableMax_assoc tableMax_self,
        assocSelf tableMin_assoc tableMin_self, assocSelf tableMax_assoc tableMax_self, List.forall_mem_nil _⟩,
      ⟨notNot, notNot, List.forall_mem_nil _⟩, deMorgan, deMorgan, xorB_self ha, fun i hi => codeAt_xorU_self ha hi,
      valB_notB ha⟩
  · have comm {t : Table2} h := binaryLogic_comm (k := 12) (t := t) h ha hb
    have assocSelf {t : Table2} h h' :=
      And.intro (binaryLogic_assoc (k := 12) (t := t) h ha hb hd) (binaryLogic_self (k := 12) (t := t) h' ha)
    exact ⟨⟨comm tableMin_comm, comm tableMax_comm, comm tableXorU_comm, List.forall_mem_nil _⟩,
      ⟨assocSelf tableMin_assoc tableMin_self, assocSelf tableMax_assoc tableMax_self, List.forall_mem_nil _⟩,
      unaryLogic_unaryLogic (k := 12) tableNot_tableNot ha, unaryLogic_binaryLogic (k := 12) tableNot_tableMin ha hb⟩

end Sys2Proof.Machine
end

section
/-!
PROOF. The fetch, the chains and progress (42_fetch_execute.md R170 to R174, R188).

Every step of a good state is the rest of one chain run to its end (`step_of_good`), and on valid data every chain completes
(`State.ValidData.runSteps`). From a boundary the chain is that of the instruction decoded: the decoder and the fetch take the same
trytes for the operation that the opcode tryte names (`decode_three`, `ofOp_congr`).
-/

namespace Sys2Proof.Machine

variable {s : State}

/-! ## Progress -/

/-- On valid data a chain completes, whichever of its steps ends it (R172, R301). -/
theorem State.ValidData.runSteps (h : s.ValidData) (l : List (List Prim)) : ∃ t, s.runSteps l = .ok t ∧ t.ValidData := by
  induction l generalizing s with
  | nil => exact ⟨s, rfl, h⟩
  | cons ps rest ih =>
    obtain ⟨u, hu, hvalid⟩ := h.runPrims ps
    rw [State.runSteps, hu, ok_bind]
    split
    case isTrue => exact ⟨u, rfl, hvalid⟩
    case isFalse => exact ih hvalid

/-- The step of a good state runs a chain, or the rest of one, on valid data and ends the instruction (R172, R174, R190). -/
theorem step_of_good (h : s.Good) : ∃ (u : State) (l : List (List Prim)), u.ValidData ∧ step s = finish (u.runSteps l) := by
  obtain ⟨hvalid, hok⟩ := (good_iff s).mp h
  cases hp : s.phase with
  | fetch =>
    obtain ⟨t0, hread, ht0⟩ := hvalid.readU s.pc
    refine ⟨s.afterFetch t0, opChain (opOf s.cfg.opmap (valU t0)), (hvalid.takeTryte ht0).withPhase _, ?_⟩
    rw [step, hp]
    exact stepInstr_eq_finish_runSteps s hread
  | execute u =>
    obtain ⟨k, hstep, hk⟩ := phaseOk_execute hok hp
    have hlen := (opChain_length u.op).2
    refine ⟨s, (opChain u.op).drop k, hvalid, ?_⟩
    rw [step_eq_tickToBoundary_maxTicks]
    exact tickToBoundary_eq_finish_runSteps s u.op maxTicks k hstep hk (by rw [maxTicks]; omega)

/-- Settles O36: the tick by `tick_of_good`, the step because the chain it runs completes. -/
theorem goodStatesGoOn : Obligations.GoodStatesGoOn := by
  unfold Obligations.GoodStatesGoOn
  intro s h
  obtain ⟨t, ht, -⟩ := tick_of_good h
  obtain ⟨u, l, hvalid, hstep⟩ := step_of_good h
  obtain ⟨v, hv, -⟩ := hvalid.runSteps l
  exact ⟨⟨t, ht⟩, v.endInstr, by rw [hstep, hv, finish], rfl⟩

/-! ## The chains -/

/-- Settles O40: the table of R188 is the chain of each form read off; the ticks are counted by `opTicks_of_not_branch`. -/
theorem ticksAndAccessesOfEveryForm : Obligations.TicksAndAccessesOfEveryForm := by
  unfold Obligations.TicksAndAccessesOfEveryForm
  simp only [List.forall_mem_cons]
  refine ⟨fun _ => rfl, fun _ => rfl, rfl, rfl, rfl, fun _ => rfl, fun _ => rfl, fun _ => rfl, fun _ => rfl,
    fun _ => ⟨rfl, rfl, List.forall_mem_nil _⟩, fun _ => rfl, fun _ => ⟨rfl, rfl, List.forall_mem_nil _⟩, fun _ => rfl,
    fun _ => ⟨rfl, rfl, List.forall_mem_nil _⟩, rfl, fun _ => rfl, fun o f => ?_⟩
  obtain ⟨c, rfl⟩ | ho := branch_or_not o
  · rfl
  · rw [opTicks_of_not_branch ho, List.length_map]
    cases o with
    | branch c => exact absurd rfl (ho c)
    | _ => rfl

/-! ## The fetch -/

/-- The state after the fetch tick, field by field (R171). -/
theorem afterFetch_eq (s : State) (t0 : Tryte) : s.afterFetch t0 = { s with
    db := t0, pc := encU12 (valU12 s.pc + 1), phase := .execute ⟨opOf s.cfg.opmap (valU t0), 1⟩ } := by
  rw [State.afterFetch, State.takeTryte, incW]

/-- Settles O41: the fetch tick is one read and `State.afterFetch`. -/
theorem fetchTick : Obligations.FetchTick := by
  unfold Obligations.FetchTick
  intro s hs
  rw [tick_fetch s hs, State.fetchTick]
  refine ⟨fun t0 h => ?_, fun e h => ?_⟩
  · rw [h, ok_bind, tickOutcome, afterFetch_eq]
  · rw [h]
    rfl

/-- Assembly looks at the operand trytes that the format has, and at no more (R82). -/
theorem ofOp_congr {o : Op} {v1 v2 u1 u2 : Tryte} (t0 : Tryte)
    (h : [v1, v2].take o.format.operandTrytes = [u1, u2].take o.format.operandTrytes) :
    Instr.ofOp o t0 v1 v2 = Instr.ofOp o t0 u1 u2 :=
  eq_of_op_operands_invalidTryte (by simp only [op_ofOp]) (by simp only [operands_ofOp, h])
    (by simp only [invalidTryte_ofOp])

/-- The instruction at the front of three trytes is the operation of the first with the other two (R82, R85). -/
theorem decode_three {m : Opmap} {t0 t1 t2 : Tryte} {rest : List Tryte} {i : Instr}
    (h : decode m [t0, t1, t2] = .ok (i, rest)) : i = Instr.ofOp (opOf m (valU t0)) t0 t1 t2 := by
  obtain ⟨u0, v1, v2, hi, hts, -, -⟩ := decode_ok_reads h
  obtain ⟨rfl, hbehind⟩ := List.cons.inj hts
  have hop : i.op = opOf m (valU t0) := by rw [hi, op_ofOp]
  have htaken : i.operands = [t1, t2].take i.op.format.operandTrytes := by
    rw [hbehind, ← operands_length, List.take_left]
  rw [hop, hi, operands_ofOp] at htaken
  exact hi.trans (ofOp_congr t0 htaken)

/-- Settles O42: the fetch answers the decoded instruction, and the step runs it on the state after the fetch tick. -/
theorem stepRunsTheDecodedInstruction : Obligations.StepRunsTheDecodedInstruction := by
  unfold Obligations.StepRunsTheDecodedInstruction
  intro s t0 t1 t2 i rest hs ht0 hreads hdecode
  obtain rfl := decode_three hdecode
  have hfetch : s.fetchInstr = .ok (t0, Instr.ofOp (opOf s.cfg.opmap (valU t0)) t0 t1 t2) := by
    rw [State.fetchInstr, ht0, ok_bind, incW_incW, incW]
    generalize opOf s.cfg.opmap (valU t0) = o at hreads ⊢
    have hsame {v1 v2 : Tryte} (h : [t1, t2].take o.format.operandTrytes = [v1, v2].take o.format.operandTrytes) :
        Instr.ofOp o t0 t1 t2 = Instr.ofOp o t0 v1 v2 := ofOp_congr t0 h
    cases hf : o.format <;> simp only [hf] at hreads hsame ⊢
    case imp => rw [hsame (v1 := 0) (v2 := 0) rfl]
    case imm | immb => rw [hreads, ok_bind, hsame (v1 := t1) (v2 := 0) rfl]
    case abs3 =>
      obtain ⟨hlo, hhi⟩ := hreads
      rw [hlo, ok_bind, hhi, ok_bind]
  rw [step, hs, ← afterFetch_eq]
  dsimp only
  rw [stepInstr, hfetch]

end Sys2Proof.Machine
end

section
/-!
PROOF. The loads and the stores (42_fetch_execute.md R179 to R189, 43_load_store.md R200, R201).

The effective addresses by value, then what each family of instructions runs (`loadImmediate_eq`, `loadMemory_eq`,
`storeMemory_eq`) at its two modes.
-/

namespace Sys2Proof.Machine

variable {s : State}

/-! ## Effective addresses -/

/-- The index add by value: the register is signed, the sum modulo 531441 (R179). -/
theorem valU12_indexed (base : UWord) (r : Tryte) : (valU12 (indexed base r) : Int) = (valU12 base + valB r) % 531441 := by
  rw [indexed, coe_valU12_encU12, toUWordS, coe_valU12_encU12, Int.add_emod_emod]

/-- A pointer is its two trytes joined, low tryte first (R183). -/
theorem pointerAt_ok {w : UWord} {lo hi : Tryte} (hlo : s.readU w = .ok lo) (hhi : s.readU (incW w) = .ok hi) :
    s.pointerAt w = .ok (wordOf lo hi) := by
  rw [State.pointerAt, hlo, ok_bind, hhi, ok_bind]

/-- A pointer read stops where one of its two reads does (R183). -/
theorem pointerAt_error {w : UWord} {e : Fault}
    (h : s.readU w = .error e ∨ ∃ lo, s.readU w = .ok lo ∧ s.readU (incW w) = .error e) : s.pointerAt w = .error e :=
  bind_error.mpr (h.imp_right fun ⟨lo, hlo, hhi⟩ => ⟨lo, hlo, bind_error.mpr (.inl hhi)⟩)

/-- Settles O48: the index add by value, and the pointer that is read. -/
theorem effectiveAddresses : Obligations.EffectiveAddresses := by
  unfold Obligations.EffectiveAddresses
  intro s w
  have hindexed (base : UWord) (r : Tryte) : validWord (indexed base r) = true ∧
      (valU12 (indexed base r) : Int) = (valU12 base + valB r) % 531441 := ⟨validWord_encU12 _, valU12_indexed base r⟩
  refine ⟨rfl, rfl, ⟨_, rfl, rfl, hindexed w s.x⟩, ⟨_, rfl, rfl, hindexed w s.y⟩, fun lo hi hlo hhi => ?_, fun e h => ?_⟩
  · have hpointer : s.pointerAt w = .ok (wordOf lo hi) := pointerAt_ok hlo hhi
    have hvalue : (valU12 (wordOf lo hi) : Int) = valU lo + 729 * valU hi := by rw [valU12_wordOf]; push_cast; rfl
    rw [← hvalue, State.loadAddress, State.loadAddress, State.loadAddress, hpointer]
    exact ⟨rfl, ⟨_, rfl, hindexed _ s.x⟩, ⟨_, rfl, hindexed _ s.y⟩⟩
  · have hpointer : s.pointerAt w = .error e := pointerAt_error h
    rw [State.loadAddress, State.loadAddress, State.loadAddress, hpointer]
    exact ⟨rfl, rfl, rfl⟩

/-! ## Loads -/

/-- Settles O47: `loadImmediate_eq` at each mode. -/
theorem loadImmediateResult : Obligations.LoadImmediateResult := by
  unfold Obligations.LoadImmediateResult
  intro e he v s
  have hexec : exec (e.2 v) s = loadImmediate e.1 v s := by fin_cases he <;> rfl
  rw [hexec, loadImmediate_eq]
  refine ⟨fun hmode => ?_, fun hmode => ?_⟩ <;> rw [hmode] <;> rfl

theorem rdM_of_balanced (h : s.f.bu = .balanced) (p : UWord) : s.rdM p = s.readB p := by rw [State.rdM, h]

theorem rdM_of_unbalanced (h : s.f.bu = .unbalanced) (p : UWord) : s.rdM p = s.readU p := by rw [State.rdM, h]

theorem endInstr_setReg (s : State) (r : Reg) (v : Tryte) : (s.setReg r v).endInstr = s.endInstr.setReg r v := by
  cases r <;> rfl

/-- A load from memory whose reads answer (R181 to R184, R186). -/
theorem loadMemory_of_reads (r : Reg) {m : AddrMode} {w ea : UWord} {b : Tryte} (hea : s.loadAddress m w = .ok ea)
    (hb : s.rdM ea = .ok b) : loadMemory r m w s = .next (({ s with
      db := b, al := ea, pc := encU12 (valU12 s.pc + 2), phase := .fetch,
      f := { s.f with s := signM s.f.bu b } } : State).setReg r (fromBus s.f.bu b)) := by
  rw [loadMemory_eq, hea, ok_bind, hb, ok_bind, finish, endInstr_setReg, incW_incW]
  rfl

/-- A load from memory stops where its address does not exist or its datum cannot be read (R183, R186). -/
theorem loadMemory_fault (r : Reg) {m : AddrMode} {w : UWord} {err : Fault}
    (h : s.loadAddress m w = .error err ∨ ∃ ea, s.loadAddress m w = .ok ea ∧ s.rdM ea = .error err) :
    loadMemory r m w s = .fault err := by
  obtain hea | ⟨ea, hea, hb⟩ := h
  · rw [loadMemory_eq, hea]
    rfl
  · rw [loadMemory_eq, hea, ok_bind, hb]
    rfl

/-- Settles O49: `loadMemory_of_reads` at each mode, and `loadMemory_fault`. -/
theorem loadMemoryResult : Obligations.LoadMemoryResult := by
  unfold Obligations.LoadMemoryResult
  intro e he w s
  have hexec : exec (e.2.2 w) s = loadMemory e.1 e.2.1 w s := by fin_cases he <;> rfl
  rw [hexec]
  refine ⟨fun ea b hea hmode hb => ?_, fun ea b hea hmode hb => ?_, fun err h => loadMemory_fault _ (.inl h),
    fun ea err hea hb => loadMemory_fault _ (.inr ⟨ea, hea, hb⟩)⟩
  · rw [loadMemory_of_reads _ hea ((rdM_of_balanced hmode ea).trans hb), hmode]
    rfl
  · rw [loadMemory_of_reads _ hea ((rdM_of_unbalanced hmode ea).trans hb), hmode]
    rfl

/-! ## Stores -/

theorem cell_eq_none_iff {v : Nat} : s.cell v = none ↔ locate s.cfg v = .unmapped := by
  refine ⟨fun h => ?_, cell_of_unmapped⟩
  cases hl : locate s.cfg v with
  | unmapped => rfl
  | mapped b n => rw [cell_of_mapped hl] at h; cases h

/-- The cells of any state whose memory is that after a write (R59). -/
theorem cell_of_mem_writeCell {u : State} (hwf : s.mem.wf = true) {p : UWord} {t : Tryte} (hc : u.cfg = s.cfg)
    (hm : u.mem = (s.writeCell p t).mem) (v : Nat) :
    u.cell v = if v = valU12 p then (s.cell v).map fun _ => t else s.cell v := by
  rw [← cell_writeCell hwf p t v, State.cell, State.cell, hc, hm, writeCell_cfg]

/-- A tryte write leaves every byte outside the two-byte window of its cell (R54, R59). -/
theorem hostRead_writeCell (hwf : s.mem.wf = true) (p : UWord) (t : Tryte) {b : BufferName} {n : Nat}
    (h : ∀ k, locate s.cfg (valU12 p) = .mapped b k → n ≠ windowByte k ∧ n ≠ windowByte k + 1) :
    (s.writeCell p t).hostRead b n = s.hostRead b n := by
  cases hp : locate s.cfg (valU12 p) with
  | unmapped => rw [writeCell_of_unmapped hp]
  | mapped q k =>
    have hmem : (s.writeCell p t).mem = s.mem.set q (codecWrite (s.mem.get q) k t) := by rw [State.writeCell, hp]
    rw [State.hostRead, State.hostRead, hmem, Memory.get_set]
    split
    case isFalse => rfl
    case isTrue hbq =>
      subst hbq
      obtain ⟨hlow, hhigh⟩ := h k hp
      rw [readByte_codecWrite (Memory.get_wf _ _ hwf), if_neg hhigh.symm, if_neg hlow.symm]

/-- A store changes the latches, PC, PHASE and memory, and memory as one tryte write of the register's pattern does (R187,
R201). -/
theorem storeMemory_next (s : State) (r : Reg) (m : StMode) (w : UWord) : ∃ t, storeMemory r m w s = .next t ∧
    t = { s with
      db := toBus s.f.bu (s.reg r), al := s.storeAddress m w, pc := encU12 (valU12 s.pc + 2), phase := .fetch, mem := t.mem } ∧
    t.mem = (s.writeCell (s.storeAddress m w) (toBus s.f.bu (s.reg r))).mem :=
  ⟨_, storeMemory_eq s r m w, by rw [incW_incW], rfl⟩

/-- Settles O50: the cells, the bytes and the canonical form are those after one tryte write. -/
theorem storeResult : Obligations.StoreResult := by
  unfold Obligations.StoreResult
  intro e he w s hwf ea out
  have hexec : exec (e.2.2 w) s = storeMemory e.1 e.2.1 w s := by fin_cases he <;> rfl
  obtain ⟨t, ht, hframe, hmem⟩ := storeMemory_next s e.1 e.2.1 w
  have hcfg : t.cfg = s.cfg := by rw [hframe]
  have hcell (v : Nat) : t.cell v = if v = valU12 ea then (s.cell v).map fun _ => out else s.cell v :=
    cell_of_mem_writeCell hwf hcfg hmem v
  refine ⟨t, hexec.trans ht, hframe, fun hmapped => ?_, fun hunmapped => ?_, fun v hv => ?_, fun b n h => ?_, ?_⟩
  · obtain ⟨u, hu⟩ := Option.ne_none_iff_exists'.mp hmapped
    rw [hcell, if_pos rfl, hu, Option.map_some]
  · rw [hmem, writeCell_of_unmapped (cell_eq_none_iff.mp hunmapped)]
  · rw [hcell, if_neg hv]
  · rw [State.hostRead, hmem]
    exact hostRead_writeCell hwf ea out h
  · rw [hmem]
    exact writeCell_wf s ea out hwf

end Sys2Proof.Machine
end

section
/-!
PROOF. The adds (44_add.md R260 to R268).

The two add functions by value (`addByMode_of_balanced`, `addByMode_of_unbalanced`); then an add is one write of A and F
with what its mode's function answers (`exec_adds_imm_of_addByMode`, `exec_adds_regD_of_addByMode`), for the three
increments alike.
-/

namespace Sys2Proof.Machine

variable {s : State}

/-! ## The add functions by value -/

theorem addByMode_of_balanced {f : Flags} (h : f.bu = .balanced) (acc m12 : Tryte) (d : Int) :
    addByMode f acc m12 d = addBalanced f acc m12 d := by
  rw [addByMode, h]

/-- Converting an unbalanced encoding encodes the same number as a Tryte: both are taken modulo 729 (R106, R111). -/
theorem toTryte_encU (n : Int) : toTryte (encU n) = encB n := by
  refine encB_eq_of_emod (validTryte_encB n) ?_
  rw [coe_valU_encU, valB_encB, wrapB_eq]
  omega

/-- The unbalanced add reads the accumulator as its value modulo 729 and writes back the Tryte of the sum (R261). -/
theorem addByMode_of_unbalanced {f : Flags} (h : f.bu = .unbalanced) (acc m12 : Tryte) (d : Int) :
    addByMode f acc m12 d =
      (encB ((valB acc % 729 + valU m12 + d) % 729),
        { f with
          s := if (valB acc % 729 + valU m12 + d) % 729 = 0 then .zero else .pos
          cb := if (valB acc % 729 + valU m12 + d) % 729 < valB acc % 729 then .pos else .zero }) := by
  have hadd : addByMode f acc m12 d = addUnbalanced f acc m12 d := by rw [addByMode, h]
  simp only [hadd, addUnbalanced, toTryte_encU, coe_valU_toUTryte, tryteRange, Nat.cast_ofNat]

/-! ## The adds -/

/-- An immediate add whose add function answers `r` (R180, R263 to R265). -/
theorem exec_adds_imm_of_addByMode {k : AddKind} {v : Tryte} {r : Tryte × Flags}
    (h : addByMode s.f s.a v (addIncrement s.cfg.adddbDelta s.f.cb .imm k) = r) :
    exec (.adds .imm k v) s = .next { s with
      db := v, pc := encU12 (valU12 s.pc + 1), phase := .fetch, a := r.1, f := r.2 } := by
  rw [exec_adds_imm, addImmediate_eq, h, incW]

/-- An add of D whose add function answers `r` (R266 to R268). -/
theorem exec_adds_regD_of_addByMode {k : AddKind} {r : Tryte × Flags}
    (h : addByMode s.f s.a (toBus s.f.bu s.d) (addIncrement s.cfg.adddbDelta s.f.cb .regD k) = r) :
    exec (.adds .regD k 0) s = .next { s with phase := .fetch, a := r.1, f := r.2 } := by
  rw [exec_adds_regD, addData_eq, h]

/-- Settles O51: every add writes what `addBalanced` answers, for an operand tryte or for D as it stands. -/
theorem balancedAddResult : Obligations.BalancedAddResult := by
  unfold Obligations.BalancedAddResult
  intro s hmode a after carry borrow delta
  have himm (k : AddKind) (v : Tryte) := exec_adds_imm_of_addByMode (k := k) (addByMode_of_balanced hmode s.a v _)
  have hbus : toBus s.f.bu s.d = s.d := by rw [hmode, toBus]
  have hregD (k : AddKind) := exec_adds_regD_of_addByMode (k := k) (addByMode_of_balanced hmode s.a _ _)
  rw [hbus] at hregD
  exact ⟨fun v => ⟨himm .plain v, himm .carry v, himm .borrow v⟩, hregD .plain, hregD .carry, hregD .borrow⟩

/-- Settles O52: every add writes what `addByMode_of_unbalanced` gives, for an operand tryte or for D modulo 729. -/
theorem unbalancedAddResult : Obligations.UnbalancedAddResult := by
  unfold Obligations.UnbalancedAddResult
  intro s hmode a after carry borrow delta
  have himm (k : AddKind) (v : Tryte) := exec_adds_imm_of_addByMode (k := k) (addByMode_of_unbalanced hmode s.a v _)
  have hbus : (valU (toBus s.f.bu s.d) : Int) = valB s.d % 729 := by rw [hmode, toBus, coe_valU_toUTryte]
  have hregD (k : AddKind) := exec_adds_regD_of_addByMode (k := k) (addByMode_of_unbalanced hmode s.a _ _)
  rw [hbus] at hregD
  exact ⟨fun v => ⟨himm .plain v, himm .carry v, himm .borrow v⟩, hregD .plain, hregD .carry, hregD .borrow⟩

end Sys2Proof.Machine
end

section
/-!
PROOF. The transfers (45_transfer.md R270 to R292).

A register transfer is one register write; a stack-pointer transfer converts two trytes between the registers and the
halves of SP. That each stack-pointer transfer undoes the other is that the conversions do (`toTryte_toUTryte`,
`toUTryte_toTryte`).
-/

namespace Sys2Proof.Machine

variable (s : State)

/-- `TYXSP` joins the converted registers in SP, whatever SP held before (R291). -/
theorem exec_tyxsp :
    exec .tyxsp s = .next { s with sp := wordOf (toUTryte s.x) (toUTryte s.y), phase := .fetch } := by
  change finish (.ok s.spLowFromX.spHighFromY) = _
  simp only [finish, State.endInstr, State.spHighFromY, State.spLowFromX, loTryte_wordOf]

/-- `TSPYX` writes X and Y with the converted halves of SP (R292). -/
theorem exec_tspyx :
    exec .tspyx s = .next { s with x := toTryte (loTryte s.sp), y := toTryte (hiTryte s.sp), phase := .fetch } := rfl

/-- A state at the boundary whose X and Y are the converted halves of SP is one that `TSPYX` leaves as it is. -/
theorem exec_tspyx_eq_self (hphase : s.phase = .fetch) (hx : toTryte (loTryte s.sp) = s.x)
    (hy : toTryte (hiTryte s.sp) = s.y) : exec .tspyx s = .next s := by
  rw [exec_tspyx, hx, hy, ← hphase]

/-- A state at the boundary whose SP is the converted X and Y is one that `TYXSP` leaves as it is. -/
theorem exec_tyxsp_eq_self (hphase : s.phase = .fetch) (hsp : wordOf (toUTryte s.x) (toUTryte s.y) = s.sp) :
    exec .tyxsp s = .next s := by
  rw [exec_tyxsp, hsp, ← hphase]

/-- Converting the halves of a valid word to Trytes and back gives the word (R113, R116). -/
theorem wordOf_toUTryte_toTryte {w : UWord} (h : validWord w = true) :
    wordOf (toUTryte (toTryte (loTryte w))) (toUTryte (toTryte (hiTryte w))) = w := by
  obtain ⟨hlo, hhi⟩ := (validWord_iff w).mp h
  rw [toUTryte_toTryte hlo, toUTryte_toTryte hhi, wordOf_halves]

/-- Settles O54: the states are those of `exec_tyxsp` and `exec_tspyx`, and the conversions are inverse to each other on
valid patterns. -/
theorem stackPointerTransfers : Obligations.StackPointerTransfers := by
  unfold Obligations.StackPointerTransfers
  intro s
  refine ⟨⟨_, exec_tyxsp s, rfl, rfl, ?value, fun hx hy => ?restoresXY⟩,
    ⟨_, exec_tspyx s, rfl, valB_toTryte _, valB_toTryte _, rfl, rfl, fun hsp => ?restoresSp⟩⟩
  case value =>
    rw [valU12_wordOf, Nat.cast_add, Nat.cast_mul, coe_valU_toUTryte, coe_valU_toUTryte, Nat.cast_ofNat]
  case restoresXY =>
    refine exec_tspyx_eq_self _ rfl ?_ ?_
    · rw [loTryte_wordOf, toTryte_toUTryte hx]
    · rw [hiTryte_wordOf, toTryte_toUTryte hy]
  case restoresSp => exact exec_tyxsp_eq_self _ rfl (wordOf_toUTryte_toTryte hsp)

/-- A register transfer is the boundary with one register written (R270). -/
theorem exec_xfer_eq (t : Xfer) :
    exec (.xfer t) s = .next (({ s with phase := .fetch } : State).setReg (xferDst t) (s.reg (xferSrc t))) := by
  rw [exec_xfer, transfer_eq]

/-- Settles O53: `exec_xfer_eq` at each of the twenty pairs of registers. -/
theorem transferResult : Obligations.TransferResult := by
  unfold Obligations.TransferResult
  intro s
  have copies := exec_xfer_eq s
  exact ⟨copies .tac, copies .tad, copies .tax, copies .tay,
    copies .tca, copies .tcd, copies .tcx, copies .tcy,
    copies .tda, copies .tdc, copies .tdx, copies .tdy,
    copies .txa, copies .txc, copies .txd, copies .txy,
    copies .tya, copies .tyc, copies .tyd, copies .tyx⟩

end Sys2Proof.Machine
end

section
/-!
PROOF. The jump and the branches (46_control_flow.md R300 to R319).

A branch is decided by its condition (`exec_branch_of_condHolds`, `exec_branch_of_not_condHolds`). The eighteen tests are the
conditions on one status trit, without the negation (`branchResult_eq`) and with it (`branchResult_ne`).
-/

namespace Sys2Proof.Machine

/-- A taken branch ends as the jump does (R301). -/
theorem exec_branch_of_condHolds {c : Cond} {s : State} (h : condHolds c s.f = true) (w : UWord) :
    exec (.branch c w) s = .next { s with pc := w, al := w, db := hiTryte w, phase := .fetch } := by
  rw [exec_branch, branchOn_eq, if_pos h]

/-- A branch that is not taken has read both target trytes, and only the low one is in AL (R189, R301). -/
theorem exec_branch_of_not_condHolds {c : Cond} {s : State} (h : condHolds c s.f = false) (w : UWord) :
    exec (.branch c w) s = .next { s with
      pc := encU12 (valU12 s.pc + 2), al := wordOf (loTryte w) (hiTryte s.al), db := hiTryte w, phase := .fetch } := by
  rw [exec_branch, branchOn_eq, if_neg (Bool.eq_false_iff.mp h), incW_incW]

theorem condHolds_eq (q : StatusTrit) (v : Trit) (f : Flags) : condHolds ⟨q, v, false⟩ f = (f.status q == v) :=
  Bool.bne_false _

theorem condHolds_ne (q : StatusTrit) (v : Trit) (f : Flags) : condHolds ⟨q, v, true⟩ f = (f.status q != v) :=
  Bool.bne_true _

/-- The instruction `branch` jumps where `test` holds on F and goes on behind its operand where it does not. -/
def BranchResult (test : Flags → Bool) (branch : UWord → Instr) : Prop :=
  ∀ (w : UWord) (s : State),
    (test s.f = true → exec (branch w) s = .next { s with pc := w, al := w, db := hiTryte w, phase := .fetch }) ∧
    (test s.f = false → exec (branch w) s = .next { s with
      pc := encU12 (valU12 s.pc + 2), al := wordOf (loTryte w) (hiTryte s.al), db := hiTryte w, phase := .fetch })

/-- The nine branches on a status trit that equals a digit. -/
theorem branchResult_eq (q : StatusTrit) (v : Trit) :
    BranchResult (fun f => f.status q == v) (.branch ⟨q, v, false⟩) := fun w s =>
  ⟨fun h => exec_branch_of_condHolds ((condHolds_eq q v s.f).trans h) w,
    fun h => exec_branch_of_not_condHolds ((condHolds_eq q v s.f).trans h) w⟩

/-- The nine branches on a status trit that differs from a digit. -/
theorem branchResult_ne (q : StatusTrit) (v : Trit) :
    BranchResult (fun f => f.status q != v) (.branch ⟨q, v, true⟩) := fun w s =>
  ⟨fun h => exec_branch_of_condHolds ((condHolds_ne q v s.f).trans h) w,
    fun h => exec_branch_of_not_condHolds ((condHolds_ne q v s.f).trans h) w⟩

/-- Settles O55: the jump is `execJmp_eq`; for each status trit three branches are `branchResult_eq` and three
`branchResult_ne`. -/
theorem jumpAndBranchResult : Obligations.JumpAndBranchResult := by
  unfold Obligations.JumpAndBranchResult
  refine ⟨fun w s => execJmp_eq s w, ?_⟩
  simp only [List.forall_mem_cons]
  exact ⟨branchResult_eq .s .pos, branchResult_eq .s .zero, branchResult_eq .s .neg,
    branchResult_ne .s .pos, branchResult_ne .s .zero, branchResult_ne .s .neg,
    branchResult_eq .ou .pos, branchResult_eq .ou .zero, branchResult_eq .ou .neg,
    branchResult_ne .ou .pos, branchResult_ne .ou .zero, branchResult_ne .ou .neg,
    branchResult_eq .cb .pos, branchResult_eq .cb .zero, branchResult_eq .cb .neg,
    branchResult_ne .cb .pos, branchResult_ne .cb .zero, branchResult_ne .cb .neg, List.forall_mem_nil _⟩

end Sys2Proof.Machine
end

section
/-!
PROOF. The flag-set instructions and the invalid operation (47_flag_ops.md R330 to R336).

A flag-set instruction writes F with `Flags.setBy` at the operand's balanced value (`exec_setFlag_of_valB`). At 1, -1 and 0
that update evaluates to one trit of F; any other value keeps F (`setBy_of_other`). An opcode number that the dispatch table
does not list is looked up as INVALID (`opOf_eq_invalid_of_not_mem`), whose step is the fetch tick and nothing more.
-/

namespace Sys2Proof.Machine

variable (s : State)

/-! ## The flag-set instructions -/

/-- An operand value other than 1, -1 and 0 keeps every flag (R331 to R334). -/
theorem setBy_of_other (f : Flags) (tog : Toggle) (sel : FlagSel) {n : Int} (h1 : n ≠ 1) (hneg : n ≠ -1) (h0 : n ≠ 0) :
    f.setBy tog sel n = f := by
  cases sel with
  | ou | cb => rw [Flags.setBy, setStatusTrit, if_neg h1, if_neg hneg, if_neg h0]
  | i | bu => rw [Flags.setBy, if_neg h1, if_neg hneg]

/-- A flag-set instruction takes its operand tryte and updates F by the tryte's balanced value, in either mode (R330). -/
theorem exec_setFlag_of_valB {v : Tryte} {n : Int} (h : valB v = n) (sel : FlagSel) :
    exec (.setFlag sel v) s = .next { s with
      db := v, pc := encU12 (valU12 s.pc + 1), phase := .fetch, f := s.f.setBy s.cfg.flagToggle sel n } := by
  rw [exec_setFlag, flagSet_eq, incW, h]

/-- Settles O56: `exec_setFlag_of_valB` for each flag, at 1, -1, 0 and any other value. -/
theorem flagSetResult : Obligations.FlagSetResult := by
  unfold Obligations.FlagSetResult
  intro v s u toggled
  have sets {n : Int} (h : valB v = n) := exec_setFlag_of_valB s h
  refine ⟨fun h => ?setting, fun h => ?clearing, fun h => ?toggling, fun h1 hneg h0 => ?keeping⟩
  case setting => exact ⟨sets h .ou, sets h .cb, sets h .i, sets h .bu⟩
  case clearing => exact ⟨sets h .ou, sets h .cb, sets h .i, sets h .bu⟩
  case toggling =>
    have htoggled : toggled = toggleApply s.cfg.flagToggle := by
      funext d
      cases d <;> rfl
    rw [htoggled]
    exact ⟨sets h .ou, sets h .cb, sets h .i, sets h .bu⟩
  case keeping =>
    have keeps (sel : FlagSel) : exec (.setFlag sel v) s = .next u := by
      rw [sets rfl, setBy_of_other _ _ _ h1 hneg h0]
    exact ⟨keeps .ou, keeps .cb, keeps .i, keeps .bu⟩

/-! ## The invalid operation -/

/-- A number that no entry of the table carries is looked up as INVALID (R87). -/
theorem opOf_eq_invalid_of_not_mem {m : Opmap} {n : Nat} (h : ∀ e ∈ m, e.1 ≠ n) : opOf m n = .invalid := by
  by_contra hop
  exact h _ (mem_opmap_of_opOf hop) rfl

/-- INVALID ends the instruction and does nothing else (R336). -/
theorem exec_invalid (t : Tryte) : exec (.invalid t) s = .next { s with phase := .fetch } := rfl

/-- An opcode tryte that the table leaves to INVALID is the whole instruction: no operand is read (R87, R171). -/
theorem fetchInstr_of_invalid {t0 : Tryte} (h : s.readU s.pc = .ok t0) (hop : opOf s.cfg.opmap (valU t0) = .invalid) :
    s.fetchInstr = .ok (t0, .invalid t0) := by
  rw [State.fetchInstr, h, ok_bind, hop]
  rfl

/-- Settles O43: the instruction fetched is INVALID, which ends the instruction on the state after the fetch tick. -/
theorem unassignedOpcodeIsNoOp : Obligations.UnassignedOpcodeIsNoOp := by
  unfold Obligations.UnassignedOpcodeIsNoOp
  refine ⟨fun t s => exec_invalid s t, fun s t0 hs hread hfree => ?step, rfl, rfl, rfl⟩
  case step =>
    have hfetch := fetchInstr_of_invalid s hread (opOf_eq_invalid_of_not_mem hfree)
    calc
      step s = stepInstr s := by rw [step, hs]
      _ = exec (.invalid t0) (s.afterFetch t0) := by rw [stepInstr, hfetch]
      _ = .next { s with db := t0, pc := encU12 (valU12 s.pc + 1) } := by rw [exec_invalid, afterFetch_eq, ← hs]

end Sys2Proof.Machine
end

section
/-!
PROOF. What can stop the machine (60_exceptions.md R340 to R342, 20_memory.md R63).

A statement stops at a bad cell of the state that it runs in (`runPrim_error`). In every chain the one statement that writes memory
is the last (`opChain_writesLast`), so a bad cell that stops a chain was bad before its first statement
(`runPrims_error`). A step is the rest of one chain (`step_cases`), a tick that does not complete is where the step stops
(`step_eq_tick`), and of the instructions only a load from memory can stop (`exec_load_or_completes`).
-/

namespace Sys2Proof.Machine

variable {s t u : State} {e : Fault}

/-! ## A bad cell -/

/-- The fault names an address of `s` that is mapped and whose cell has a field holding 3 (R63, R341). -/
def State.HasBadCell (s : State) : Fault → Prop
  | .tritInvariantViolation a => ∃ t, s.cell (valU12 a) = some t ∧ validTryte t = false

/-- The cells are those of the configuration and the memory. -/
theorem State.HasBadCell.congr (h : u.HasBadCell e) (hc : u.cfg = s.cfg) (hm : u.mem = s.mem) : s.HasBadCell e := by
  cases e
  simpa only [State.HasBadCell, State.cell, hc, hm] using h

theorem State.cellsValid.not_hasBadCell (h : s.cellsValid) : ¬ s.HasBadCell e := by
  cases e
  rintro ⟨t, ht, hbad⟩
  rw [h _ t ht] at hbad
  cases hbad

/-- A tryte read stops at a bad cell (R63). -/
theorem readOr_hasBadCell {z : Tryte} {p : UWord} (h : s.readOr z p = .error e) : s.HasBadCell e := by
  obtain ⟨t, ht, hbad, rfl⟩ := (readOr_error s).mp h
  exact ⟨t, ht, hbad⟩

theorem rdM_hasBadCell {p : UWord} (h : s.rdM p = .error e) : s.HasBadCell e :=
  readOr_hasBadCell (rdM_eq s p ▸ h)

/-! ## Where a chain stops -/

/-- A read followed by something that cannot stop, stops where the read does. -/
theorem error_of_bind_ok {α β : Type} {x : Except Fault α} {g : α → β} (h : (x >>= fun a => .ok (g a)) = .error e) :
    x = .error e := by
  obtain h | ⟨a, -, h⟩ := bind_error.mp h
  · exact h
  · cases h

/-- A statement stops at a bad cell (R341). -/
theorem runPrim_error {p : Prim} (h : s.runPrim p = .error e) : s.HasBadCell e := by
  cases p with
  | opread | loread | pointerLow | pointerHigh | flagImm => exact readOr_hasBadCell (error_of_bind_ok h)
  | load | loadImm | addImm => exact rdM_hasBadCell (error_of_bind_ok h)
  | test | hiset | index | store | jump | addD | copy | spLow | spHigh | xFromSp | yFromSp => cases h

/-- A read followed by something that leaves memory as it was. -/
theorem mem_of_bind {α : Type} {x : Except Fault α} {g : α → State} (hg : ∀ a, (g a).mem = s.mem)
    (h : (x >>= fun a => .ok (g a)) = .ok t) : t.mem = s.mem := by
  obtain ⟨a, -, ht⟩ := bind_ok.mp h
  cases ht
  exact hg a

/-- Only the store access writes memory (R70, R188). -/
theorem runPrim_mem {p : Prim} (hp : p.access ≠ some .dataWrite) (h : s.runPrim p = .ok t) : t.mem = s.mem := by
  cases p with
  | store => exact absurd rfl hp
  | opread => exact mem_of_bind (takeTryte_mem s) h
  | loread => exact mem_of_bind (takeHigh_mem s) h
  | pointerLow => exact mem_of_bind (g := fun b => { s with db := b }) (fun _ => rfl) h
  | pointerHigh => exact mem_of_bind (g := fun b => { s with al := wordOf s.db b, db := b }) (fun _ => rfl) h
  | load r => exact mem_of_bind (loadDatum_mem s r) h
  | loadImm r => exact mem_of_bind (fun b => (loadDatum_mem _ r b).trans (takeTryte_mem s b)) h
  | addImm k => exact mem_of_bind (fun b => (addOperand_mem _ .imm k b).trans (takeTryte_mem s b)) h
  | flagImm f => exact mem_of_bind (fun b => (setFlag_mem _ f b).trans (takeTryte_mem s b)) h
  | index r => cases h; exact indexAdd_mem s r
  | copy x => cases h; exact copyReg_mem s x
  | addD k => cases h; exact addRegD_mem s k
  | test | hiset | jump | spLow | spHigh | xFromSp | yFromSp => cases h; rfl

/-- No statement comes after one that writes memory. -/
def WritesLast (ps : List Prim) : Prop := ps.IsChain fun p _ => p.access ≠ some .dataWrite

/-- Every chain ends with its write to memory, if it makes one (R181, R182, R187). -/
theorem opChain_writesLast (o : Op) : WritesLast (opChain o).flatten := by
  unfold WritesLast
  cases o with
  | ld r m => cases m with
    | imm => simp [opChain]
    | mem m => cases m <;> simp [opChain, addressChain, Prim.access]
  | st r m => cases m <;> simp [opChain, stAddr, addressChain, Prim.access]
  | add src k => cases src <;> simp [opChain]
  | jmp | branch | tyxsp | tspyx => simp [opChain, Prim.access]
  | xfer | setFlag | invalid => simp [opChain]

/-- The rest of a chain has its write last. -/
theorem drop_writesLast (o : Op) (k : Nat) : WritesLast ((opChain o).drop k).flatten := by
  refine (opChain_writesLast o).suffix ⟨((opChain o).take k).flatten, ?_⟩
  rw [← List.flatten_append, List.take_append_drop]

/-- Statements of which the last alone may write memory stop at a cell that was bad before the first (R341). -/
theorem runPrims_error {ps : List Prim} (hps : WritesLast ps) (h : s.runPrims ps = .error e) : s.HasBadCell e := by
  induction ps generalizing s with
  | nil => cases h
  | cons p rest ih =>
    obtain hp | ⟨u, hu, hrest⟩ := bind_error.mp h
    · exact runPrim_error hp
    · cases rest with
      | nil => cases hrest
      | cons q rest =>
        obtain ⟨hp, hchain⟩ := List.isChain_cons_cons.mp hps
        exact (ih hchain hrest).congr (runPrim_cfg hu) (runPrim_mem hp hu)

/-- A chain that stops does so in its statements run in order: an early end by a branch test is no stop (R301). -/
theorem runPrims_of_runSteps_error {l : List (List Prim)} (h : s.runSteps l = .error e) :
    s.runPrims l.flatten = .error e := by
  induction l generalizing s with
  | nil => cases h
  | cons ps rest ih =>
    rw [List.flatten_cons, runPrims_append, bind_error]
    obtain hps | ⟨t, ht, hrest⟩ := bind_error.mp h
    · exact .inl hps
    · split at hrest
      case isTrue => cases hrest
      case isFalse => exact .inr ⟨t, ht, ih hrest⟩

/-! ## Where a step and a tick stop -/

/-- In a legal phase a step is the fetch that stops, or the rest of one chain on the cells as they are (R172, R174, R190). -/
theorem step_cases (hok : s.phaseOk = true) :
    (∃ e, s.readU s.pc = .error e ∧ step s = .fault e) ∨
    ∃ (u : State) (o : Op) (k : Nat), u.cfg = s.cfg ∧ u.mem = s.mem ∧ step s = finish (u.runSteps ((opChain o).drop k)) := by
  cases hp : s.phase with
  | fetch =>
    have hstep : step s = stepInstr s := by rw [step, hp]
    cases hread : s.readU s.pc with
    | error e => exact .inl ⟨e, rfl, hstep.trans (stepInstr_of_readU_error s hread)⟩
    | ok t0 =>
      exact .inr ⟨s.afterFetch t0, opOf s.cfg.opmap (valU t0), 0, afterFetch_cfg s t0, afterFetch_mem s t0,
        hstep.trans (stepInstr_eq_finish_runSteps s hread)⟩
  | execute v =>
    obtain ⟨k, hstep, hk⟩ := phaseOk_execute hok hp
    have hlen := (opChain_length v.op).2
    refine .inr ⟨s, v.op, k, rfl, rfl, ?_⟩
    rw [step_eq_tickToBoundary_maxTicks]
    exact tickToBoundary_eq_finish_runSteps s v.op maxTicks k hstep hk (by rw [maxTicks]; omega)

/-- A tick that does not complete is where the step stops (R174). -/
theorem step_eq_tick (h : ∀ t, tick s ≠ .next t) : step s = tick s := by
  rw [step_eq_tickToBoundary_maxTicks, maxTicks, tickToBoundary]
  cases ht : tick s with
  | next t => exact absurd ht (h t)
  | fault e => rfl
  | refused r => rfl

/-- In a phase that names no step of a chain the tick is refused (log 13). -/
theorem tick_of_not_phaseOk (h : ¬ s.phaseOk = true) : tick s = .refused .noSuchMicroOperation := by
  unfold State.phaseOk at h
  unfold tick
  cases hp : s.phase with
  | fetch => rw [hp] at h; exact absurd rfl h
  | execute v =>
    rw [hp] at h
    simp only [Option.not_isSome_iff_eq_none.mp h]

/-- A step that faults began in a legal phase. -/
theorem phaseOk_of_step_fault (h : step s = .fault e) : s.phaseOk = true := by
  by_contra hok
  have htick := tick_of_not_phaseOk hok
  rw [step_eq_tick (by simp [htick]), htick] at h
  cases h

theorem finish_fault {r : Except Fault State} (h : finish r = .fault e) : r = .error e := by
  cases r <;> cases h
  rfl

/-- A step stops at a bad cell (R341). -/
theorem step_fault (h : step s = .fault e) : s.HasBadCell e := by
  obtain ⟨d, hread, hstep⟩ | ⟨u, o, k, hc, hm, hstep⟩ := step_cases (phaseOk_of_step_fault h)
  · rw [h] at hstep
    cases hstep
    exact readOr_hasBadCell hread
  · have hrun := runPrims_of_runSteps_error (finish_fault (hstep ▸ h))
    exact (runPrims_error (drop_writesLast o k) hrun).congr hc hm

/-- A tick stops at a bad cell (R341). -/
theorem tick_fault (h : tick s = .fault e) : s.HasBadCell e :=
  step_fault ((step_eq_tick (by simp [h])).trans h)

/-! ## Where an instruction stops -/

/-- Every instruction but a load from memory completes at a boundary on every state (R340). -/
theorem exec_load_or_completes (i : Instr) (s : State) :
    (∃ r m w, i.op = .ld r (.mem m) ∧ exec i s = loadMemory r m w s) ∨ ∃ t, exec i s = .next t ∧ t.phase = .fetch := by
  rcases exec_cases i s with ⟨r, m, w, hop, -, he⟩ | ⟨r, m, w, -, -, he⟩ | ⟨r, v, -, he⟩ | ⟨k, v, -, he⟩ | ⟨k, -, he⟩ |
    ⟨x, -, he⟩ | ⟨-, he⟩ | ⟨-, he⟩ | ⟨w, -, he⟩ | ⟨c, w, -, -, he⟩ | ⟨f, v, -, he⟩ | ⟨v, -, he⟩
  · exact .inl ⟨r, m, w, hop, he⟩
  · exact .inr ⟨_, he.trans (storeMemory_eq s r m w), rfl⟩
  all_goals exact .inr ⟨_, he, rfl⟩

/-- A pointer read stops at a bad cell (R183). -/
theorem pointerAt_hasBadCell {w : UWord} (h : s.pointerAt w = .error e) : s.HasBadCell e := by
  obtain hlo | ⟨lo, -, h⟩ := bind_error.mp h
  · exact readOr_hasBadCell hlo
  · exact readOr_hasBadCell (error_of_bind_ok h)

/-- The effective address of a load stops where its pointer does (R181 to R184). -/
theorem loadAddress_hasBadCell {m : AddrMode} {w : UWord} (h : s.loadAddress m w = .error e) : s.HasBadCell e := by
  cases m with
  | abs | absX | absY => cases h
  | ind => exact pointerAt_hasBadCell h
  | indX | indY => exact pointerAt_hasBadCell (error_of_bind_ok h)

/-- A load from memory completes at a boundary or stops at a bad cell (R186, R341). -/
theorem loadMemory_cases (r : Reg) (m : AddrMode) (w : UWord) (s : State) :
    (∃ t, loadMemory r m w s = .next t ∧ t.phase = .fetch) ∨ ∃ e, loadMemory r m w s = .fault e ∧ s.HasBadCell e := by
  rw [loadMemory_eq]
  cases hea : s.loadAddress m w with
  | error e => exact .inr ⟨e, rfl, loadAddress_hasBadCell hea⟩
  | ok ea =>
    rw [ok_bind]
    cases hb : s.rdM ea with
    | error e => exact .inr ⟨e, rfl, rdM_hasBadCell hb⟩
    | ok b => exact .inl ⟨_, rfl, rfl⟩

/-- An instruction completes at a boundary, or is a load from memory that stops at a bad cell (R340, R341). -/
theorem exec_outcome (i : Instr) (s : State) :
    (∃ t, exec i s = .next t ∧ t.phase = .fetch) ∨
    ∃ r m e, i.op = .ld r (.mem m) ∧ exec i s = .fault e ∧ s.HasBadCell e := by
  obtain ⟨r, m, w, hop, he⟩ | hnext := exec_load_or_completes i s
  · rw [he]
    exact (loadMemory_cases r m w s).imp_right fun ⟨e, hfault, hbad⟩ => ⟨r, m, e, hop, hfault, hbad⟩
  · exact .inl hnext

theorem exec_fault {i : Instr} (h : exec i s = .fault e) : s.HasBadCell e := by
  obtain ⟨t, ht, -⟩ | ⟨r, m, d, -, hd, hbad⟩ := exec_outcome i s
  · rw [h] at ht
    cases ht
  · rw [h] at hd
    cases hd
    exact hbad

/-- Settles O44: by `tick_fault`, `step_fault` and `exec_fault`. -/
theorem everyFaultIsABadCell : Obligations.EveryFaultIsABadCell := by
  unfold Obligations.EveryFaultIsABadCell
  exact ⟨fun _ _ => tick_fault, fun _ _ => step_fault, fun _ _ _ => exec_fault⟩

/-- No step in a legal phase is refused (R340). -/
theorem step_not_refused (hok : s.phaseOk = true) (r : Refusal) : step s ≠ .refused r := by
  obtain ⟨e, -, hstep⟩ | ⟨u, o, k, -, -, hstep⟩ := step_cases hok <;> rw [hstep]
  · exact nofun
  · exact finish_not_refused _ r

/-- Settles O45: an instruction has one of the two outcomes of `exec_outcome`, and a tick that is refused refuses the step. -/
theorem nothingIsRefused : Obligations.NothingIsRefused := by
  unfold Obligations.NothingIsRefused
  refine ⟨fun i s r h => ?_, fun s r hok => ⟨fun h => ?_, step_not_refused hok r⟩⟩
  · obtain ⟨t, ht, -⟩ | ⟨_, _, e, -, he, -⟩ := exec_outcome i s
    · rw [h] at ht
      cases ht
    · rw [h] at he
      cases he
  · exact step_not_refused hok r ((step_eq_tick (by simp [h])).trans h)

/-- Settles O46: by `exec_outcome`, whose second case is a load and needs a bad cell. -/
theorem everyInstructionCompletes : Obligations.EveryInstructionCompletes := by
  unfold Obligations.EveryInstructionCompletes
  intro i s h
  obtain hnext | ⟨r, m, e, hop, -, hbad⟩ := exec_outcome i s
  · exact hnext
  · obtain hcells | hnoLoad := h
    · exact absurd hbad hcells.not_hasBadCell
    · exact absurd hop (hnoLoad r m)

end Sys2Proof.Machine
end

section
/-!
PROOF. The host's side: construction and reset (70_reset_and_hazards.md R355 to R368) and the host's bytes (R375, 20_memory.md R71).

Construction asks for R62, under which every region ends inside the address space (`region_end_le`) and no address lies in two
(`not_regionsOk_of_inRegion`); and the byte that the host writes is one byte of one buffer (`hostRead_hostWrite`).
-/

namespace Sys2Proof.Machine

/-! ## Construction -/

/-- An admissible configuration and a canonical image that fits it give the reset state (R360). -/
theorem construct_of_admissible {c : Config} {image : Memory} (hadm : c.admissible = true) (hwf : image.wf = true)
    (hfits : image.fits c = true) : construct c image = .next (State.resetWith c image) := by
  rw [construct, hadm, hwf, hfits]
  rfl

/-- The bits of F after reset: BU and I set (R362). -/
theorem pack_resetFlags : resetFlags.pack = 0x569#12 := by decide

/-- The balanced value of F after reset (R362). -/
theorem valB_pack_resetFlags : valB resetFlags.pack = 12 := by
  rw [pack_resetFlags]
  decide

/-- Settles O31: the constructed state is `State.resetWith`, and it is good by `good_of_construct`. -/
theorem constructionIsReset : Obligations.ConstructionIsReset := by
  unfold Obligations.ConstructionIsReset
  intro c image hadm hwf hfits
  have hnext := construct_of_admissible hadm hwf hfits
  exact ⟨_, hnext, rfl, rfl, rfl, rfl, rfl, by decide, rfl, pack_resetFlags, valB_pack_resetFlags, rfl, rfl, rfl, rfl, rfl,
    rfl, rfl, good_of_construct hnext⟩

/-- A configuration that breaks R62 gives no machine (R355). -/
theorem construct_of_not_regionsOk {c : Config} (h : ¬ c.regionsOk = true) (image : Memory) :
    construct c image = .refused .badConfiguration := by
  rw [construct, Config.admissible, eq_false_of_ne_true h]
  rfl

/-- Under R62 every region ends inside the address space. -/
theorem region_end_le {c : Config} (hok : c.regionsOk = true) (b : BufferName) :
    regionBase c b + regionSize c b ≤ 531441 := by
  simp only [Config.regionsOk, Bool.and_eq_true, decide_eq_true_eq] at hok
  obtain ⟨⟨⟨⟨⟨⟨⟨⟨⟨hram, hfb⟩, hcit⟩, hpal⟩, -⟩, -⟩, -⟩, -⟩, -⟩, -⟩ := hok
  cases b with
  | ram => exact (Nat.zero_add _).trans_le hram
  | fb => exact hfb
  | cit => exact hcit
  | pal => exact hpal

/-- A region that reaches past the address space breaks R62. -/
theorem not_regionsOk_of_end {c : Config} {b : BufferName} (h : 531441 < regionBase c b + regionSize c b) :
    ¬ c.regionsOk = true :=
  fun hok => Nat.not_lt.mpr (region_end_le hok b) h

/-- An address in the regions of two buffers breaks R62. -/
theorem not_regionsOk_of_inRegion {c : Config} {b q : BufferName} {v : Nat} (hne : b ≠ q) (hb : InRegion c b v)
    (hq : InRegion c q v) : ¬ c.regionsOk = true :=
  fun hok => not_mem_both_of_disjointRanges (disjointRanges_of_regionsOk hok hne) hb hq

/-- Settles O32: each way to be wrong breaks R62, by `not_regionsOk_of_inRegion` or `not_regionsOk_of_end`. -/
theorem badRegionsAreRefused : Obligations.BadRegionsAreRefused := by
  unfold Obligations.BadRegionsAreRefused
  intro c image v h
  refine construct_of_not_regionsOk ?_ image
  have inRam : v < c.ramSize → InRegion c .ram v := inRegion_ram.mpr
  rcases h with ⟨hram, hfb⟩ | ⟨hram, hcit⟩ | ⟨hram, hpal⟩ | ⟨hfb, hfb', hcit⟩ | ⟨hfb, hfb', hpal⟩ | ⟨hcit, hcit', hpal⟩ |
    hram | hfb | hcit | hpal
  · exact not_regionsOk_of_inRegion (b := .ram) (q := .fb) (by decide) (inRam hram) hfb
  · exact not_regionsOk_of_inRegion (b := .ram) (q := .cit) (by decide) (inRam hram) hcit
  · exact not_regionsOk_of_inRegion (b := .ram) (q := .pal) (by decide) (inRam hram) hpal
  · exact not_regionsOk_of_inRegion (b := .fb) (q := .cit) (by decide) ⟨hfb, hfb'⟩ hcit
  · exact not_regionsOk_of_inRegion (b := .fb) (q := .pal) (by decide) ⟨hfb, hfb'⟩ hpal
  · exact not_regionsOk_of_inRegion (b := .cit) (q := .pal) (by decide) ⟨hcit, hcit'⟩ hpal
  · exact not_regionsOk_of_end (b := .ram) (hram.trans_eq (Nat.zero_add _).symm)
  · exact not_regionsOk_of_end (b := .fb) hfb
  · exact not_regionsOk_of_end (b := .cit) hcit
  · exact not_regionsOk_of_end (b := .pal) hpal

/-- With nothing listed in memory every mapped cell holds `0x000` (R367, log 4). -/
theorem cell_of_mem_empty {s : State} (hm : s.mem = Memory.empty) {v : Nat} {t : Tryte} (h : s.cell v = some t) :
    t = 0x000#12 := by
  cases hl : locate s.cfg v with
  | unmapped => rw [cell_of_unmapped hl] at h; cases h
  | mapped b n =>
    have hb : Memory.empty.get b = [] := by cases b <;> rfl
    rw [cell_of_mapped hl, hm, hb, Option.some.injEq] at h
    rw [← h]
    simp [codecRead, window, readByte, unlistedByte]

/-- TEST_CONFIG meets the constraints of R4. -/
theorem admissible_testConfig : testConfig.admissible = true := by decide +kernel

/-- Settles O33: TEST_CONFIG is admissible, and every cell of the zero image holds `0x000`. -/
theorem resetStateOfTheModel : Obligations.ResetStateOfTheModel := by
  unfold Obligations.ResetStateOfTheModel
  have hnext : construct testConfig Memory.empty = .next State.reset :=
    construct_of_admissible admissible_testConfig rfl rfl
  have hcells : State.reset.cellsValid := fun v t ht => by rw [cell_of_mem_empty rfl ht]; decide
  refine ⟨hnext, good_of_construct hnext hcells, by decide, by decide, fun v hv => ?_⟩
  have hram : locate State.reset.cfg v = .mapped .ram v := if_pos hv
  have hcell := cell_of_mapped (s := State.reset) hram
  rw [hcell, cell_of_mem_empty rfl hcell]

/-! ## The host's bytes -/

variable {s t : State} {b : BufferName} {n : Nat} {v : Byte}

/-- A byte that the buffer has is written into memory, and nothing else is (R375). -/
theorem hostWrite_of_inside (h : n < bufferBytes (regionSize s.cfg b)) (v : Byte) :
    s.hostWrite b n v = .next { s with mem := s.mem.set b (writeByte (s.mem.get b) n v) } := if_pos h

/-- A byte that the buffer does not have is refused (log 13). -/
theorem hostWrite_of_outside (h : bufferBytes (regionSize s.cfg b) ≤ n) (v : Byte) :
    s.hostWrite b n v = .refused .outsideBuffer := if_neg (Nat.not_lt.mpr h)

/-- What the host reads after a write: the byte written, and every other byte of every buffer as before (R71, R375). -/
theorem hostRead_hostWrite (hwf : s.mem.wf = true) (ht : s.hostWrite b n v = .next t) (q : BufferName) (m : Nat) :
    t.hostRead q m = if q = b ∧ m = n then v else s.hostRead q m := by
  unfold State.hostWrite at ht
  split at ht <;> cases ht
  rw [State.hostRead, State.hostRead, Memory.get_set]
  by_cases hq : q = b
  · subst hq
    simp only [if_true, true_and, readByte_writeByte _ _ _ _ (Memory.get_wf _ _ hwf), eq_comm]
  · rw [if_neg hq, if_neg fun h => hq h.1]

/-- Settles O23: by `hostWrite_of_inside`, `hostRead_hostWrite`, `hostWrite_wf` and `hostWrite_of_outside`. -/
theorem hostBufferAccess : Obligations.HostBufferAccess := by
  unfold Obligations.HostBufferAccess
  intro s b n v hwf
  refine ⟨fun hin => ?_, fun hout => hostWrite_of_outside hout v⟩
  have hwrite := hostWrite_of_inside hin v
  have hread := hostRead_hostWrite hwf hwrite
  refine ⟨_, hwrite, rfl, ?_, fun q m hother => ?_, hostWrite_wf _ _ _ _ _ hwf hwrite⟩
  · rw [hread, if_pos ⟨rfl, rfl⟩]
  · rw [hread, if_neg (not_and_or.mpr hother)]

end Sys2Proof.Machine
end
